-- ==== Sys2Proof/Word.lean ====
section
/-! DEFINITION. The word types of frame_encoder (00_scope.md R13, 30_encoding.md R67). -/

namespace Sys2Proof

/-- A byte: 8 bits, bit 0 least significant (R13). -/
abbrev Byte := BitVec 8

/-- A 32-bit unsigned value: an event argument, an index, a length, a hash (R13, R67). -/
abbrev Word32 := BitVec 32

/-- An event word EVT: 40 bits, `code` in [39:32] and `arg` in [31:0] (R67). -/
abbrev EventWord := BitVec 40

end Sys2Proof
end

