-- ==== Sys2Proof/Config.lean ====
section
/-! DEFINITION. What the platform fixes (00_scope.md R11, R12) and the free values. The two hash providers and the
free values are opaque: no proof can see what they are. -/

namespace Sys2Proof

/-- `END_POLICY`: what the sequencer does after the final block (R11, 92_eei_decisions.md D5). The policy of a run
stands in the field `endPolicy` of State, so that every statement about a state holds for both. -/
inductive EndPolicy where
  /-- End the session and emit DONE (42_sequencer.md R124); the spec's default. -/
  | stop
  /-- Return to index 2 (42_sequencer.md R125). -/
  | loop
  deriving DecidableEq, Repr

/-- The two input channels (42_sequencer.md R105). -/
inductive Channel where
  /-- Carries START, STOP and LOAD_FAIL. -/
  | control
  /-- Carries COMPLETE. -/
  | completion
  deriving DecidableEq, Repr, Inhabited

/-- The pair of hash providers, an argument of the encoder (R12, 41_hash_integration.md R91, R92, R94). Any two total
functions are a pair; the digest has 16 bytes by its type. -/
structure Providers where
  /-- `HASH32(data, seed)`. -/
  hash32 : List Byte → Word32 → Word32
  /-- `DIGEST128(data)`, provider byte 0 first. -/
  digest128 : List Byte → Vector Byte 16

/-- The platform's `HASH32`: no algorithm is assumed (R12, D15; log 2). -/
opaque Config.hash32 : List Byte → Word32 → Word32

/-- The platform's `DIGEST128`: no algorithm is assumed (R12, D15). -/
opaque Config.digest128 : List Byte → Vector Byte 16

/-- The providers bound at boot (70_reset_and_hazards.md R149 item 1). -/
def Config.providers : Providers := ⟨Config.hash32, Config.digest128⟩

/-- Free value: which channel the core takes first, at the n-th draw, when both heads are enabled. The spec leaves it
open (42_sequencer.md R105); log 3. -/
opaque Config.channelChoice : Nat → Channel

/-- Free value: the index that a TRANSMIT word with `nextIndex = 0` would stand for, at the n-th draw. No index has
`index + 1 = 0` (30_encoding.md R69), so the spec states none; log 10. -/
opaque Config.freeIndex : Nat → Word32

end Sys2Proof
end

