-- ==== Sys2Proof/Machine/Bytes.lean ====
section
/-! DEFINITION. Byte sequences (00_scope.md R14) and the two fields of an event word (30_encoding.md R67). -/

namespace Sys2Proof.Machine

/-- `le_N(v)`: the N-byte little-endian encoding of `v`, least significant byte first (R14, R44). -/
def le : Nat → Nat → List Byte
  | 0, _ => []
  | n + 1, v => BitVec.ofNat 8 v :: le n (v / 256)

/-- `from_le(S)`, the value of a little-endian byte sequence (R14). -/
def fromLe : List Byte → Nat
  | [] => 0
  | b :: bs => b.toNat + 256 * fromLe bs

/-- `S[a:b)`, the half-open slice (R14). -/
def slice (S : List Byte) (a b : Nat) : List Byte := (S.drop a).take (b - a)

/-- `rep(n, v)`, `n` copies of a byte (R14). -/
def rep (n : Nat) (v : Byte) : List Byte := List.replicate n v

/-- The code of an event word, bits [39:32] (R67). -/
def eventCode (w : EventWord) : Byte := w.extractLsb' 32 8

/-- The argument of an event word, bits [31:0] (R67). -/
def eventArg (w : EventWord) : Word32 := w.extractLsb' 0 32

/-- The event word of a code and an argument (R67). -/
def eventWord (code : Byte) (arg : Word32) : EventWord := code ++ arg

/-- The bytes of a number, most significant first: how spec/opcode_table.json numbers the 8 header bytes of
a frame format (30_encoding.md R74, "offset 0 most significant"). -/
def bigEndian : Nat → Nat → List Byte
  | 0, _ => []
  | n + 1, v => BitVec.ofNat 8 (v / 256 ^ n) :: bigEndian n v

end Sys2Proof.Machine
end

