-- ==== Sys2Proof/Machine/Constants.lean ====
section
/-! DEFINITION. The constants the source fixes (00_scope.md R9, R10) and the event codes (30_encoding.md R68, R69).
They stand here, and not in Config, so that a repair can reach them. -/

namespace Sys2Proof.Machine

/-- `PREAMBLE`, the 7 bytes every frame begins with (R9, 30_encoding.md R58). -/
def preamble : List Byte := [0x00, 0x00, 0x00, 0x00, 0xAA, 0x55, 0x42]

/-- `CTRL_VERSION`, the control-frame marker at offset 7 (R9, 30_encoding.md R59). -/
def ctrlVersion : Byte := 0x81

/-- `DATA_VERSION`, the field `sectorVersion` at offset 7 (R9, 30_encoding.md R61). -/
def dataVersion : Byte := 0x01

/-- `TERMINATOR`, the last byte of both frames (R9). -/
def terminatorByte : Byte := 0xFF

/-- `PAD`, the padding byte of a short chunk (R9, 40_frame_encoder.md R83). -/
def padByte : Byte := 0xFF

/-- `CTRL_LEN` (R9). -/
def ctrlLen : Nat := 37

/-- `DATA_LEN` (R9). -/
def dataLen : Nat := 271

/-- `CHUNK` (R9). -/
def chunkSize : Nat := 256

/-- `SEED_CONTENT`, used by `contentHash` only (R9, 41_hash_integration.md R96). -/
def seedContent : Word32 := 0x32D0BABE

/-- `SEED_HEADER`, used by `headerHash` and `blockHash` (R9, 41_hash_integration.md R96). -/
def seedHeader : Word32 := 0xDEADBEEF

/-- `STRIPE_A`, applied where position mod 16 = 14 (R9). -/
def stripeA : Byte := 0x55

/-- `STRIPE_B`, applied where position mod 16 = 6 (R9). -/
def stripeB : Byte := 0xAA

/-- `CTRL_REPEAT`: frame indices 0 and 1 carry the control frame (R9). -/
def ctrlRepeat : Nat := 2

/-- `MAX_BLOCKS = 2^16` (R10). -/
def maxBlocks : Nat := 65536

/-- `MAX_LEN = MAX_BLOCKS × CHUNK = 2^24` (R10). -/
def maxLen : Nat := 16777216

/-- Input event codes (30_encoding.md R68). -/
def codeStart : Byte := 0x01
/-- See `codeStart`. -/
def codeStop : Byte := 0x02
/-- See `codeStart`. -/
def codeComplete : Byte := 0x03
/-- See `codeStart`. -/
def codeLoadFail : Byte := 0x04

/-- Output event codes (30_encoding.md R69). -/
def codeTransmit : Byte := 0x10
/-- See `codeTransmit`. -/
def codeDone : Byte := 0x11
/-- See `codeTransmit`. -/
def codeError : Byte := 0x12

end Sys2Proof.Machine
end

