-- ==== Sys2Proof/Syntax.lean ====
section
/-! DEFINITION. The instructions: one constructor for each row of spec/opcode_table.json (30_encoding.md R74), and the
transactions they are read from. -/

namespace Sys2Proof

/-- The fields of a ControlFrame that are not fixed by its header (30_encoding.md R57). -/
structure ControlFields where
  /-- `length`, offsets [8, 12). -/
  length : Word32
  /-- `contentHash`, offsets [12, 16). -/
  contentHash : Word32
  /-- `contentDigest`, offsets [16, 32), provider byte order. -/
  contentDigest : List Byte
  /-- `headerHash`, offsets [32, 36). -/
  headerHash : Word32
  /-- `terminator`, offset 36. -/
  terminator : Byte
  deriving DecidableEq, Repr

/-- The fields of a DataFrame that are not fixed by its header, before striping (30_encoding.md R60). -/
structure DataFields where
  /-- `blockNumber`, offsets [8, 10). -/
  blockNumber : BitVec 16
  /-- `payload`, offsets [10, 266), padded, before striping. -/
  payload : List Byte
  /-- `blockHash`, offsets [266, 270). -/
  blockHash : Word32
  /-- `terminator`, offset 270. -/
  terminator : Byte
  deriving DecidableEq, Repr

/-- One operation of the block. Event words carry their 32-bit argument; what the spec presents beside a word (the
buffer of START, the frame of TRANSMIT, R67) stands in State. An internal operation carries its operands. -/
inductive Instr where
  /-- CONTROL_FRAME: a frame of format CTRL (R57). -/
  | controlFrame (f : ControlFields)
  /-- DATA_FRAME: a frame of format DATA (R60, R62). -/
  | dataFrame (f : DataFields)
  /-- START `L` (R110). -/
  | start (len : Word32)
  /-- STOP (R115). -/
  | stop
  /-- COMPLETE `n` (R116). -/
  | complete (n : Word32)
  /-- LOAD_FAIL (R117). -/
  | loadFail
  /-- TRANSMIT with `nextIndex` (R123). -/
  | transmit (next : Word32)
  /-- DONE with the end index (R124). -/
  | done (endIndex : Word32)
  /-- ERROR with `zext_32(code)` (R130). -/
  | error (arg : Word32)
  /-- STEP `index` (R118). -/
  | step (index : Word32)
  /-- BUILD_CONTROL_FRAME of a buffer (R77). -/
  | buildControlFrame (buffer : List Byte)
  /-- BUILD_DATA_FRAME of a chunk and a block number; both operands also take the values outside the precondition
  (R81, R82). -/
  | buildDataFrame (chunk : List Byte) (k : Nat)
  /-- PAD a chunk to a payload (R83). -/
  | pad (chunk : List Byte)
  /-- STRIPE an assembled DataFrame (R85). -/
  | stripe (frame : List Byte)
  deriving DecidableEq, Repr

/-- What is read as an instruction: an event word, or the bytes of a frame, offset 0 first (R56). -/
inductive Transaction where
  /-- A 40-bit event word (R67). -/
  | event (w : EventWord)
  /-- The bytes of a frame (R57, R60). -/
  | frame (bytes : List Byte)
  deriving DecidableEq, Repr

end Sys2Proof
end

