-- ==== Sys2Proof/Machine/Layout.lean ====
section
/-! DEFINITION. The two frame layouts, byte by byte, and the clock-recovery striping: fields to bytes and bytes to
fields (30_encoding.md R57, R60, R62, R64; 40_frame_encoder.md R85). -/

namespace Sys2Proof.Machine

/-- One lane of `stripe` on a frame of `n` bytes: position `p` in [8, n - 5) is XORed with `0x55` where
`p mod 16 = 14` and with `0xAA` where `p mod 16 = 6`; every other byte is unchanged (R85). -/
def stripeByte (n p : Nat) (b : Byte) : Byte :=
  if 8 ≤ p ∧ p < n - 5 then
    if p % 16 = 14 then b ^^^ stripeA else if p % 16 = 6 then b ^^^ stripeB else b
  else b

/-- `stripe` over the bytes from position `p` on, of a frame of `n` bytes. -/
def stripeFrom (n : Nat) : Nat → List Byte → List Byte
  | _, [] => []
  | p, b :: bs => stripeByte n p b :: stripeFrom n (p + 1) bs

/-- `stripe(F)` (R85). -/
def stripe (F : List Byte) : List Byte := stripeFrom F.length 0 F

/-- The 37 bytes of a ControlFrame (R57); it is never striped (40_frame_encoder.md R80). -/
def controlBytes (f : ControlFields) : List Byte :=
  preamble ++ [ctrlVersion] ++ le 4 f.length.toNat ++ le 4 f.contentHash.toNat ++ f.contentDigest ++
    le 4 f.headerHash.toNat ++ [f.terminator]

/-- What the blockHash covers: `sectorVersion ‖ blockNumber ‖ payload`, before striping (41_hash_integration.md R98). -/
def blockHashInput (k : Nat) (payload : List Byte) : List Byte := [dataVersion] ++ le 2 k ++ payload

/-- The 271 bytes of a DataFrame as assembled, before striping (R60). -/
def assembledBytes (f : DataFields) : List Byte :=
  preamble ++ blockHashInput f.blockNumber.toNat f.payload ++ le 4 f.blockHash.toNat ++ [f.terminator]

/-- The 271 bytes of a DataFrame as sent: assembled, then striped (R62, R85). -/
def dataBytes (f : DataFields) : List Byte := stripe (assembledBytes f)

/-- The frame's length follows from the byte at offset 7 alone (30_encoding.md R64). -/
def frameLength (F : List Byte) : Option Nat :=
  if F[7]? = some ctrlVersion then some ctrlLen
  else if F[7]? = some dataVersion then some dataLen
  else none

/-- The fields of a ControlFrame, read back (20_memory.md R47). -/
def controlFieldsOf (F : List Byte) : ControlFields where
  length := BitVec.ofNat 32 (fromLe (slice F 8 12))
  contentHash := BitVec.ofNat 32 (fromLe (slice F 12 16))
  contentDigest := slice F 16 32
  headerHash := BitVec.ofNat 32 (fromLe (slice F 32 36))
  terminator := F[36]?.getD 0

/-- The fields of a DataFrame, read back after un-striping: "A striped byte must be un-striped first"
(20_memory.md R47, 40_frame_encoder.md R88). -/
def dataFieldsOf (F : List Byte) : DataFields :=
  let U := stripe F
  { blockNumber := BitVec.ofNat 16 (fromLe (slice U 8 10))
    payload := slice U 10 266
    blockHash := BitVec.ofNat 32 (fromLe (slice U 266 270))
    terminator := U[270]?.getD 0 }

/-- The bytes are a frame of one of the block's two formats: preamble, type byte, length and terminator
(30_encoding.md R57, R60, R66). -/
def isFrame (F : List Byte) : Bool :=
  F.take 7 == preamble && frameLength F == some F.length && F.getLast? == some terminatorByte

end Sys2Proof.Machine
end

