-- ==== Sys2Proof/WellFormed.lean ====
section
/-! DEFINITION. When an instruction is one the spec describes: the constant bytes of the formats, the range of an error
code, the preconditions of the encoder's operations. -/

namespace Sys2Proof

/-- The digest has 16 bytes and the terminator is `0xFF` (30_encoding.md R57). -/
def ControlFields.wellFormed (f : ControlFields) : Bool :=
  f.contentDigest.length == 16 && f.terminator == 0xFF

/-- The payload has 256 bytes and the terminator is `0xFF` (30_encoding.md R60). -/
def DataFields.wellFormed (f : DataFields) : Bool :=
  f.payload.length == 256 && f.terminator == 0xFF

/-- The encoder's precondition on a chunk: `0 < chunk.length ≤ 256` (40_frame_encoder.md R82). -/
def chunkOk (C : List Byte) : Bool := 0 < C.length && C.length ≤ 256

/-- Well-formedness of an instruction. TRANSMIT's `nextIndex` is `index + 1`, so it is not 0 (R69); an ERROR's argument
is a code of 60_exceptions.md R129; the encoder's operands meet its preconditions (R77, R82, R85). -/
def Instr.wellFormed : Instr → Bool
  | .controlFrame f => f.wellFormed
  | .dataFrame f => f.wellFormed
  | .start _ => true
  | .stop => true
  | .complete _ => true
  | .loadFail => true
  | .transmit next => next != 0
  | .done _ => true
  | .error arg => arg ≤ 4
  | .step _ => true
  | .buildControlFrame B => B.length < 2 ^ 32
  | .buildDataFrame C k => chunkOk C && k < 2 ^ 16
  | .pad C => chunkOk C
  | .stripe F => F.length == 271

end Sys2Proof
end

