-- ==== Sys2Proof/Decode.lean ====
section
/-! DEFINITION. The decoder, total on any event word and any bytes, rejecting by name; then the encoder, from the same
tables (30_encoding.md R57, R60, R67 to R70). The five internal operations have no encoding. -/

namespace Sys2Proof

open Machine

/-- Why a word or a byte sequence is no instruction. -/
inductive DecodeRefusal where
  /-- The event code is none of R68 and R69 (R70). -/
  | reservedCode (code : Byte)
  /-- A STOP or LOAD_FAIL word with `arg ≠ 0` (R70). -/
  | reservedArgument (code : Byte) (arg : Word32)
  /-- The byte at offset 7 is missing or neither `0x81` nor `0x01` (R66). -/
  | unknownFrameType
  /-- The frame does not have the length its type byte gives (R64). -/
  | wrongFrameLength
  /-- The first 7 bytes are not the preamble (R58). -/
  | wrongPreamble
  deriving DecidableEq, Repr

/-- The instruction of an event word (R67 to R70). -/
def decodeEvent (w : EventWord) : Except DecodeRefusal Instr :=
  let code := eventCode w
  let arg := eventArg w
  if code = codeStart then .ok (.start arg)
  else if code = codeStop then
    if arg = 0 then .ok .stop else .error (.reservedArgument code arg)
  else if code = codeComplete then .ok (.complete arg)
  else if code = codeLoadFail then
    if arg = 0 then .ok .loadFail else .error (.reservedArgument code arg)
  else if code = codeTransmit then .ok (.transmit arg)
  else if code = codeDone then .ok (.done arg)
  else if code = codeError then .ok (.error arg)
  else .error (.reservedCode code)

/-- The instruction of a frame's bytes: the type byte at offset 7 selects the format and its length (R64). The
terminator is read as a field (log 19). -/
def decodeFrame (F : List Byte) : Except DecodeRefusal Instr :=
  match frameLength F with
  | none => .error .unknownFrameType
  | some n =>
    if F.length ≠ n then .error .wrongFrameLength
    else if F.take 7 ≠ preamble then .error .wrongPreamble
    else if F[7]? = some ctrlVersion then .ok (.controlFrame (controlFieldsOf F))
    else .ok (.dataFrame (dataFieldsOf F))

/-- The decoder. -/
def decode : Transaction → Except DecodeRefusal Instr
  | .event w => decodeEvent w
  | .frame F => decodeFrame F

/-- The encoder: the transaction of an instruction, none for an internal operation ("internal operation, no
encoding" in spec/opcode_table.json). -/
def encode : Instr → Option Transaction
  | .controlFrame f => some (.frame (controlBytes f))
  | .dataFrame f => some (.frame (dataBytes f))
  | .start len => some (.event (eventWord codeStart len))
  | .stop => some (.event (eventWord codeStop 0))
  | .complete n => some (.event (eventWord codeComplete n))
  | .loadFail => some (.event (eventWord codeLoadFail 0))
  | .transmit next => some (.event (eventWord codeTransmit next))
  | .done endIndex => some (.event (eventWord codeDone endIndex))
  | .error arg => some (.event (eventWord codeError arg))
  | .step _ => none
  | .buildControlFrame _ => none
  | .buildDataFrame _ _ => none
  | .pad _ => none
  | .stripe _ => none

/-- One row of spec/opcode_table.json: the pattern and the mask of the bits that select it, in a number of `nbits`
bits (R74). -/
structure TableRow where
  nbits : Nat
  pattern : Nat
  mask : Nat
  deriving DecidableEq, Repr

/-- The nine encoded rows, in the table's order (R74). -/
def tableRows : List TableRow :=
  [⟨64, 0x00000000AA554281, 0xFFFFFFFFFFFFFFFF⟩, ⟨64, 0x00000000AA554201, 0xFFFFFFFFFFFFFFFF⟩,
   ⟨40, 0x0100000000, 0xFF00000000⟩, ⟨40, 0x0200000000, 0xFFFFFFFFFF⟩, ⟨40, 0x0300000000, 0xFF00000000⟩,
   ⟨40, 0x0400000000, 0xFFFFFFFFFF⟩, ⟨40, 0x1000000000, 0xFF00000000⟩, ⟨40, 0x1100000000, 0xFF00000000⟩,
   ⟨40, 0x1200000000, 0xFF00000000⟩]

/-- The row of an instruction, none for an internal operation. -/
def Instr.row : Instr → Option TableRow
  | .controlFrame _ => tableRows[0]?
  | .dataFrame _ => tableRows[1]?
  | .start _ => tableRows[2]?
  | .stop => tableRows[3]?
  | .complete _ => tableRows[4]?
  | .loadFail => tableRows[5]?
  | .transmit _ => tableRows[6]?
  | .done _ => tableRows[7]?
  | .error _ => tableRows[8]?
  | .step _ => none
  | .buildControlFrame _ => none
  | .buildDataFrame _ _ => none
  | .pad _ => none
  | .stripe _ => none

/-- A word matches a row: its masked bits are the row's pattern. -/
def TableRow.selects (r : TableRow) (w : Nat) : Bool := w &&& r.mask == r.pattern

/-- The bits by which the table selects a transaction's row: the event word, or the first 8 bytes of a frame with
offset 0 most significant (R74). -/
def Transaction.tableBits : Transaction → Nat
  | .event w => w.toNat
  | .frame F => fromLe (F.take 8).reverse

/-- The frame that begins with the 8 header bytes of a 64-bit table word (offset 0 most significant, R74), every later
byte zero; the type byte gives its length, and without one it is as long as the longest format. -/
def tableFrame (w : Nat) : List Byte :=
  let header := bigEndian 8 w
  header ++ rep ((frameLength header).getD dataLen - 8) 0

/-- The transaction that a word of spec/opcode_table.json stands for: an event word of 40 bits, a frame whose header has
64 bits (log 22). -/
def tableTransaction (nbits w : Nat) : Option Transaction :=
  if nbits = 40 then some (.event (BitVec.ofNat 40 w))
  else if nbits = 64 then some (.frame (tableFrame w))
  else none

/-- The instruction the decoder reads from a word numbered as spec/opcode_table.json numbers it. -/
def decodeTableWord (nbits w : Nat) : Option Instr :=
  (tableTransaction nbits w).bind fun t =>
    match decode t with
    | .ok i => some i
    | .error _ => none

end Sys2Proof
end

