-- ==== Sys2Proof/Machine/Memory.lean ====
section
/-! DEFINITION. A byte space addressed by offsets from 0 (20_memory.md R36, R37): the source buffer. It is a length and a
list of cells in ONE canonical form: offsets strictly rising and below the length, and no cell equal to what an
unlisted offset reads as. The core never writes it (R38); the write below is the Host's, on a buffer it owns. -/

namespace Sys2Proof.Machine

/-- A byte sequence of length `len`. Every byte sequence has exactly one canonical form (log 14). -/
structure Memory where
  /-- The number of bytes. -/
  len : Nat
  /-- The bytes that are not what an unlisted offset reads as. -/
  cells : List Host.Cell
  deriving DecidableEq, Repr

/-- What an unlisted offset below the length reads as: a way to write byte sequences down, not a choice of contents,
since a presented buffer gives each of its bytes (log 14). -/
def unlistedByte : Byte := 0

/-- The byte at an offset in a list of cells. -/
def lookupCell : List Host.Cell → Nat → Byte
  | [], _ => unlistedByte
  | (a, b) :: cs, x => if x = a then b else lookupCell cs x

/-- The byte at an offset below the length. -/
def Memory.byteAt (m : Memory) (a : Nat) : Byte := lookupCell m.cells a

/-- One byte read: none outside the byte space. -/
def Memory.read (m : Memory) (a : Nat) : Option Byte := if a < m.len then some (m.byteAt a) else none

/-- The `n` bytes from offset `a` on. -/
def Memory.bytes (m : Memory) : (a n : Nat) → List Byte
  | _, 0 => []
  | a, n + 1 => m.byteAt a :: m.bytes (a + 1) n

/-- The byte space of length 0 (10_state.md R35: "empty, length 0"). -/
def Memory.empty : Memory := ⟨0, []⟩

/-- The cells of a byte sequence placed from offset `a` on. -/
def cellsFrom : Nat → List Byte → List Host.Cell
  | _, [] => []
  | a, b :: bs => if b = unlistedByte then cellsFrom (a + 1) bs else (a, b) :: cellsFrom (a + 1) bs

/-- The byte space that holds a byte sequence. -/
def Memory.ofBytes (bs : List Byte) : Memory := ⟨bs.length, cellsFrom 0 bs⟩

/-- The cells with the cell of offset `x` set to `b`, or removed where `b` is what an unlisted offset reads as. -/
def setCell (x : Nat) (b : Byte) : List Host.Cell → List Host.Cell
  | [] => if b = unlistedByte then [] else [(x, b)]
  | (a, c) :: cs =>
    if x < a then (if b = unlistedByte then (a, c) :: cs else (x, b) :: (a, c) :: cs)
    else if x = a then (if b = unlistedByte then cs else (x, b) :: cs)
    else (a, c) :: setCell x b cs

/-- The Host's write of one byte of a buffer it owns (70_reset_and_hazards.md R150, H-3); an offset outside the buffer
changes nothing. -/
def Memory.write (m : Memory) (a : Nat) (b : Byte) : Memory :=
  if a < m.len then { m with cells := setCell a b m.cells } else m

/-- The cells are in canonical form from offset `lo` on, below `len`. -/
def cellsWf (len : Nat) : Nat → List Host.Cell → Bool
  | _, [] => true
  | lo, (a, b) :: cs => decide (lo ≤ a) && decide (a < len) && decide (b ≠ unlistedByte) && cellsWf len (a + 1) cs

/-- The canonical form holds. -/
def Memory.wf (m : Memory) : Bool := cellsWf m.len 0 m.cells

end Sys2Proof.Machine
end

