-- ==== Sys2Proof/Machine/State.lean ====
section
/-! DEFINITION. The state of the machine (10_state.md), the reasons a step can stop, and the state after reset
(10_state.md R35, 70_reset_and_hazards.md R146, R149). -/

namespace Sys2Proof.Machine

/-- `status`, the session status, 1 bit (R23). -/
inductive Status where
  /-- 0: "no active session". -/
  | idle
  /-- 1: "actively walking frames". -/
  | sending
  deriving DecidableEq, Repr

/-- The error codes that are raised, and NONE (60_exceptions.md R129). -/
inductive ErrorCode where
  | none
  | transportFailure
  | rangeOverflow
  | completionMismatch
  | spuriousCompletion
  deriving DecidableEq, Repr

/-- An output event of the core (30_encoding.md R69). -/
inductive Output where
  /-- TRANSMIT to the ChannelDriver: the whole frame, offset 0 first, and the index to echo. -/
  | transmit (frame : List Byte) (next : Word32)
  /-- DONE to the Host: the end index. -/
  | done (endIndex : Word32)
  /-- ERROR to the Host: the 3-bit error code. -/
  | error (code : BitVec 3)
  deriving DecidableEq, Repr

/-- A frame the ChannelDriver has in playback, and the index it echoes (10_state.md R34, 70_reset_and_hazards.md R151). -/
structure Playback where
  frame : List Byte
  next : Word32
  deriving DecidableEq, Repr

/-- An item of the control channel: an event word and the buffer presented beside it (30_encoding.md R67, R71). -/
structure ControlItem where
  word : EventWord
  side : Memory
  deriving DecidableEq, Repr

/-- The machine. The first seven fields are the core's architectural state (R20); then the platform's configuration, the
environment of R34 and R105, and the model's own fields. -/
structure State where
  /-- The session status (R23). -/
  status : Status
  /-- The sequencer's position, 32 bits (R24). -/
  frameIndex : Word32
  /-- Completed passes under LOOP, 32 bits (R26). -/
  playCount : Word32
  /-- The length L of the session's buffer, 32 bits (R27). -/
  srcLen : Word32
  /-- 1 exactly while a frame handed out has not had its COMPLETE consumed (R28). -/
  inFlight : Bool
  /-- The code of the most recent error, 3 bits (R30). -/
  lastError : BitVec 3
  /-- SRC, the session's source buffer (20_memory.md R37). -/
  src : Memory
  /-- END_POLICY, fixed by the platform (00_scope.md R11, 70_reset_and_hazards.md R149); log 1. -/
  endPolicy : EndPolicy
  /-- The control channel, head first (42_sequencer.md R105). -/
  control : List ControlItem
  /-- The completion channel, head first (42_sequencer.md R105). -/
  completion : List EventWord
  /-- The ChannelDriver's frames in playback, oldest first (R34). -/
  playing : List Playback
  /-- The SourceLoader has a load in progress (R34). -/
  loading : Bool
  /-- The events the core has emitted, oldest first (30_encoding.md R69). -/
  outputs : List Output
  /-- Model's own: the buffer presented beside the control word last taken; log 6. -/
  presented : Memory
  /-- Model's own: the result of an encoder operation or frame format run by itself; log 9. -/
  work : List Byte
  /-- Model's own: a word of the opcode table to be run by itself; log 8. -/
  port : Option Transaction
  /-- Model's own: channel choices fixed in advance; log 3. -/
  schedule : List Channel
  /-- Model's own: how many free values have been drawn; log 3 and log 10. -/
  draws : Nat
  deriving DecidableEq, Repr

/-- Why the model stops with a fault. The first four are the states of 60_exceptions.md R137 and
93_implementation_defined.md U15, which the rules make unreachable. -/
inductive Fault where
  /-- Raised by the operation `memRead`: a read outside `[0, srcLen)` (20_memory.md R41). Safe: the spec says fault. -/
  | readOutsideSource
  /-- Raised by BUILD_CONTROL_FRAME, BUILD_DATA_FRAME, PAD and STRIPE outside their preconditions (40_frame_encoder.md
  R82). Safe: the spec says stop (log 12). -/
  | encoderPrecondition
  /-- Raised by `step`: Sending with nothing in flight between events (42_sequencer.md R108). Safe: the spec says fault. -/
  | sendingWithoutFrame
  /-- Raised by `step(index)` while Sending with `index > 2 + blocks` (42_sequencer.md R126, 93_implementation_defined.md
  U15). Safe: the spec says fault (log 13). -/
  | stepPastEnd
  /-- Raised by ERROR with a code 5 to 7 or above, and by reading such a code in `lastError` (R129,
  93_implementation_defined.md U13). Safe: never produced by the block. -/
  | reservedErrorCode
  /-- Raised by TRANSMIT run by itself with no frame of R57 or R60 beside it (30_encoding.md R66, R69). Safe: the block
  never emits one. -/
  | noFrame
  deriving DecidableEq, Repr

/-- Why the model refuses. A refusal ends the run, and so marks the whole run refused (60_exceptions.md R136; log 5). -/
inductive Refusal where
  /-- Raised by `exec` for an instruction that has no meaning yet; none is left. Safe. -/
  | notModelled (mnemonic : String)
  /-- Raised by `step`: the word or the bytes decode to no instruction (30_encoding.md R66, R70). Safe: the spec says
  refuse. -/
  | undecodable (why : DecodeRefusal)
  /-- Raised by `step`: an output code arrives on an input channel, where it is reserved (30_encoding.md R70). Safe: the
  spec says refuse. -/
  | outputCode
  /-- Raised by `step`: an input event arrives on the channel that does not carry it (42_sequencer.md R105). Safe: the
  spec gives it no effect (log 7). -/
  | wrongChannel
  /-- Raised by START: the presented buffer's length differs from `arg` (30_encoding.md R71). Safe: the spec says refuse
  (log 6). -/
  | bufferLengthMismatch
  deriving DecidableEq, Repr

/-- The machine right after reset, with the platform's choice of END_POLICY: every register as 10_state.md R35 says, no
buffer owned, nothing waiting on either channel, no frame in playback (70_reset_and_hazards.md R146, R149). -/
def State.resetUnder (policy : EndPolicy) : State where
  status := .idle
  frameIndex := 0
  playCount := 0
  srcLen := 0
  inFlight := false
  lastError := 0
  src := Memory.empty
  endPolicy := policy
  control := []
  completion := []
  playing := []
  loading := false
  outputs := []
  presented := Memory.empty
  work := []
  port := none
  schedule := []
  draws := 0

/-- The machine right after reset under STOP, "the spec's default" (00_scope.md R11; log 1). -/
def State.reset : State := State.resetUnder .stop

end Sys2Proof.Machine
end

