-- ==== Sys2Proof/Machine/Operands.lean ====
section
/-! DEFINITION. The operands of the operations: reads of SRC, the block count, the chunk of a block, the index a
COMPLETE must echo, the buffer presented with START. -/

namespace Sys2Proof.Machine

/-- `MemRead(addr, n)`: the bytes `SRC[addr : addr+n)`, defined only inside `[0, srcLen)`; a read outside faults
(00_scope.md R15, 20_memory.md R41). -/
def memRead (addr n : Nat) (s : State) : Except Fault (List Byte) :=
  if addr + n ≤ s.srcLen.toNat ∧ addr + n ≤ s.src.len then .ok (s.src.bytes addr n)
  else .error .readOutsideSource

/-- `ceil(L / 256)`, exact, with no 32-bit wrap (42_sequencer.md R106). -/
def blocksOf (L : Nat) : Nat := (L + 255) / 256

/-- `blocks`, a combinational function of `srcLen` (42_sequencer.md R106). -/
def State.blocks (s : State) : Nat := blocksOf s.srcLen.toNat

/-- The length of the chunk of block `i` of a buffer of length `L`: 256, or what is left for the final block
(42_sequencer.md R118, R122). -/
def chunkLength (L i : Nat) : Nat := if i + 1 < blocksOf L then chunkSize else L - chunkSize * i

/-- The index the ChannelDriver must echo: `frameIndex + 1`, exact (10_state.md R29, 00_scope.md R13;
log 17). -/
def State.expectedEcho (s : State) : Nat := s.frameIndex.toNat + 1

/-- The presented buffer has the length the START word carries (30_encoding.md R71). -/
def State.presents (s : State) (L : Word32) : Bool := s.presented.len == L.toNat

end Sys2Proof.Machine
end

