-- ==== Sys2Proof/Machine/Channels.lean ====
section
/-! DEFINITION. How the core takes its next event: the two input channels, the held START, the free choice between the
channels (42_sequencer.md R105, R112), and the words that are refused (30_encoding.md R70). -/

namespace Sys2Proof.Machine

/-- Where a taken transaction came from. -/
inductive Source where
  /-- The model's own port for a word of the opcode table (log 8). -/
  | port
  | control
  | completion
  deriving DecidableEq, Repr

/-- A transaction taken, and the state without it. -/
structure Fetched where
  source : Source
  item : Transaction
  rest : State
  deriving DecidableEq, Repr

/-- The item is a START with a buffer of its length; a malformed START is no START (30_encoding.md R68, R71; log 6). -/
def ControlItem.isStart (c : ControlItem) : Bool :=
  eventCode c.word == codeStart && c.side.len == (eventArg c.word).toNat

/-- The item is held: a START while `status = Idle` and `inFlight = 1` (R112). -/
def held (s : State) (c : ControlItem) : Bool := s.status == .idle && s.inFlight && c.isStart

/-- The head of the control channel is enabled; a held head blocks its own channel only (R105). -/
def controlReady (s : State) : Bool :=
  match s.control with
  | [] => false
  | c :: _ => !held s c

/-- The head of the completion channel is enabled (R105). -/
def completionReady (s : State) : Bool := !s.completion.isEmpty

/-- The head of the control channel is taken; the buffer beside it is presented (30_encoding.md R67). -/
def takeControl (s : State) : Option Fetched :=
  match s.control with
  | [] => none
  | c :: cs => some ⟨.control, .event c.word, { s with control := cs, presented := c.side }⟩

/-- The head of the completion channel is taken. -/
def takeCompletion (s : State) : Option Fetched :=
  match s.completion with
  | [] => none
  | w :: ws => some ⟨.completion, .event w, { s with completion := ws }⟩

/-- Which channel goes first when both heads are enabled: fixed in advance by `schedule`, else a free value (R105;
log 3). -/
def chosenChannel (s : State) : Channel :=
  match s.schedule with
  | c :: _ => c
  | [] => Config.channelChoice s.draws

/-- A choice is used up. -/
def useChoice (s : State) : State := { s with schedule := s.schedule.tail, draws := s.draws + 1 }

/-- The core's next transaction: the port's, if it holds one; else the head of an enabled channel; none where no head is
enabled (R105). -/
def fetch (s : State) : Option Fetched :=
  match s.port with
  | some t => some ⟨.port, t, { s with port := none }⟩
  | none =>
    if controlReady s then
      if completionReady s then
        match chosenChannel s with
        | .control => takeControl (useChoice s)
        | .completion => takeCompletion (useChoice s)
      else takeControl s
    else if completionReady s then takeCompletion s
    else none

/-- The instruction is an output event (30_encoding.md R69). -/
def isOutputRow : Instr → Bool
  | .transmit _ => true
  | .done _ => true
  | .error _ => true
  | .controlFrame _ => false
  | .dataFrame _ => false
  | .start _ => false
  | .stop => false
  | .complete _ => false
  | .loadFail => false
  | .step _ => false
  | .buildControlFrame _ => false
  | .buildDataFrame _ _ => false
  | .pad _ => false
  | .stripe _ => false

/-- The control channel carries START, STOP and LOAD_FAIL (R105). -/
def onControl : Instr → Bool
  | .controlFrame _ => false
  | .dataFrame _ => false
  | .start _ => true
  | .stop => true
  | .complete _ => false
  | .loadFail => true
  | .transmit _ => false
  | .done _ => false
  | .error _ => false
  | .step _ => false
  | .buildControlFrame _ => false
  | .buildDataFrame _ _ => false
  | .pad _ => false
  | .stripe _ => false

/-- The completion channel carries COMPLETE (R105). -/
def onCompletion : Instr → Bool
  | .controlFrame _ => false
  | .dataFrame _ => false
  | .start _ => false
  | .stop => false
  | .complete _ => true
  | .loadFail => false
  | .transmit _ => false
  | .done _ => false
  | .error _ => false
  | .step _ => false
  | .buildControlFrame _ => false
  | .buildDataFrame _ _ => false
  | .pad _ => false
  | .stripe _ => false

/-- What a source carries (R105, 30_encoding.md R68); the port any row. -/
def Source.carries (src : Source) (i : Instr) : Bool :=
  match src with
  | .port => true
  | .control => onControl i
  | .completion => onCompletion i

/-- The instruction of a taken transaction, or the refusal of it: a reserved word (R70), an output code, which on an input
channel is reserved too, or an input event on the channel that does not carry it (log 7). -/
def interpret (src : Source) (t : Transaction) : Except Refusal Instr :=
  match decode t with
  | .error why => .error (.undecodable why)
  | .ok i =>
    if src.carries i then .ok i
    else if isOutputRow i then .error .outputCode
    else .error .wrongChannel

/-- The control item that carries a word placed by a test: START gets a buffer of its length, every byte `0x00`. -/
def itemOf (w : EventWord) : ControlItem := ⟨w, ⟨if eventCode w = codeStart then (eventArg w).toNat else 0, []⟩⟩

/-- The frame beside a TRANSMIT word placed by a test: what stands in the frame space if it is a frame, else a
ControlFrame with every field zero. -/
def frameBeside (F : List Byte) : List Byte :=
  if isFrame F then F else controlBytes ⟨0, 0, rep 16 0, 0, terminatorByte⟩

/-- The transaction is placed so that the next `fetch` takes it: an input event at the head of its channel, chosen first
if the other channel is enabled too; any other row on the port, TRANSMIT with a frame beside it (log 16). -/
def placeWord (s : State) (t : Transaction) : State :=
  match t with
  | .frame F => { s with port := some (.frame F) }
  | .event w =>
    if eventCode w = codeComplete then
      { s with
        completion := w :: s.completion
        port := none
        schedule := if controlReady s then .completion :: s.schedule else s.schedule }
    else if codeTransmit ≤ eventCode w ∧ eventCode w ≤ codeError then
      { s with
        port := some (.event w)
        work := if eventCode w = codeTransmit then frameBeside s.work else s.work }
    else
      { s with
        control := itemOf w :: s.control
        port := none
        schedule := if completionReady s then .control :: s.schedule else s.schedule }

end Sys2Proof.Machine
end

