-- ==== Sys2Proof/Machine/Encoder.lean ====
section
/-! DEFINITION. The frame encoder and the integration of the hash providers, for ANY pair of providers
(40_frame_encoder.md, 41_hash_integration.md R94). Pure functions of their operands (R75). -/

namespace Sys2Proof.Machine

/-- One call of a hash provider (41_hash_integration.md R91, R92). -/
inductive ProviderCall where
  | hash32 (data : List Byte) (seed : Word32)
  | digest128 (data : List Byte)
  deriving DecidableEq, Repr

/-- `h1 = HASH32(SRC, SEED_CONTENT)` (R97, call 1). -/
def contentHash (H : Providers) (B : List Byte) : Word32 := H.hash32 B seedContent

/-- `d = DIGEST128(SRC)`, the 16 provider bytes in order (R97, call 2; 20_memory.md R45). -/
def contentDigest (H : Providers) (B : List Byte) : List Byte := (H.digest128 B).toList

/-- What `headerHash` covers: the 20 bytes `le_4(h1) ‖ d` as placed (R97, call 3). -/
def headerHashInput (h1 : Word32) (d : List Byte) : List Byte := le 4 h1.toNat ++ d

/-- The fields of the ControlFrame of a buffer (40_frame_encoder.md R77). -/
def controlFieldsFor (H : Providers) (B : List Byte) : ControlFields where
  length := BitVec.ofNat 32 B.length
  contentHash := contentHash H B
  contentDigest := contentDigest H B
  headerHash := H.hash32 (headerHashInput (contentHash H B) (contentDigest H B)) seedHeader
  terminator := terminatorByte

/-- `buildControlFrame(B)` (R77). -/
def buildControlFrame (H : Providers) (B : List Byte) : List Byte := controlBytes (controlFieldsFor H B)

/-- The provider calls of one ControlFrame, in dependency order (R97). -/
def controlCalls (H : Providers) (B : List Byte) : List ProviderCall :=
  [.hash32 B seedContent, .digest128 B,
   .hash32 (headerHashInput (contentHash H B) (contentDigest H B)) seedHeader]

/-- The payload of a chunk: right-padded with `0xFF` to 256 bytes (R83). -/
def padChunk (C : List Byte) : List Byte := C ++ rep (chunkSize - C.length) padByte

/-- The fields of the DataFrame of a chunk and a 16-bit block number (R81). -/
def dataFieldsFor (H : Providers) (C : List Byte) (k : BitVec 16) : DataFields where
  blockNumber := k
  payload := padChunk C
  blockHash := H.hash32 (blockHashInput k.toNat (padChunk C)) seedHeader
  terminator := terminatorByte

/-- `buildDataFrame(C, k)` within its precondition (R81). -/
def buildDataFrame (H : Providers) (C : List Byte) (k : BitVec 16) : List Byte := dataBytes (dataFieldsFor H C k)

/-- The provider call of one DataFrame (R98). -/
def dataCalls (C : List Byte) (k : BitVec 16) : List ProviderCall :=
  [.hash32 (blockHashInput k.toNat (padChunk C)) seedHeader]

end Sys2Proof.Machine
end

