-- ==== Sys2Proof/Machine/Flags.lean ====
section
/-! DEFINITION. The block's two flags, `status` and `inFlight`, and the bits of its registers: "The block has no
condition codes or predicates. `status` and `inFlight` are its only flags" (10_state.md R32). -/

namespace Sys2Proof.Machine

/-- `status` as its register bit: Idle = 0, Sending = 1 (R23). -/
def Status.bit : Status → BitVec 1
  | .idle => 0
  | .sending => 1

/-- `inFlight` as its register bit (R28). -/
def State.inFlightBit (s : State) : BitVec 1 := if s.inFlight then 1 else 0

/-- `status <- Idle`, and nothing else (R31, 42_sequencer.md R115). -/
def setIdle (s : State) : State := { s with status := .idle }

/-- `status <- Sending` (42_sequencer.md R110). -/
def setSending (s : State) : State := { s with status := .sending }

/-- `inFlight <- 0` (42_sequencer.md R116). -/
def clearInFlight (s : State) : State := { s with inFlight := false }

/-- The 3-bit code of an error (60_exceptions.md R129). -/
def ErrorCode.bits : ErrorCode → BitVec 3
  | .none => 0
  | .transportFailure => 1
  | .rangeOverflow => 2
  | .completionMismatch => 3
  | .spuriousCompletion => 4

/-- The error of a 3-bit code; codes 5 to 7 are reserved (R129). -/
def ErrorCode.ofBits (b : BitVec 3) : Option ErrorCode :=
  if b = 0 then some .none
  else if b = 1 then some .transportFailure
  else if b = 2 then some .rangeOverflow
  else if b = 3 then some .completionMismatch
  else if b = 4 then some .spuriousCompletion
  else Option.none

/-- The error of an ERROR word's argument, which is `zext_32(code)` (30_encoding.md R69). -/
def ErrorCode.ofArg (arg : Word32) : Option ErrorCode :=
  if arg.toNat < 8 then ErrorCode.ofBits (BitVec.ofNat 3 arg.toNat) else Option.none

/-- An observer's read of `lastError`: a reserved code in it is an unreachable state and faults
(93_implementation_defined.md U13). -/
def readLastError (s : State) : Except Fault ErrorCode :=
  match ErrorCode.ofBits s.lastError with
  | some e => .ok e
  | Option.none => .error .reservedErrorCode

end Sys2Proof.Machine
end

