-- ==== Sys2Proof/Machine/Ops.lean ====
section
/-! DEFINITION. The operations the meanings share: emitting an event, raising an error, dispatching a frame, the guarded
encoder calls, and the reset of the core. -/

namespace Sys2Proof.Machine

/-- The outcome of a computation that answers a state or a fault. -/
def outcomeOf : Except Fault State → Host.Outcome State Fault Refusal
  | .ok s => .next s
  | .error f => .fault f

/-- `emit E(args)`: one output event is placed on the core's output (00_scope.md R15, 30_encoding.md R69). The
ChannelDriver accepts every TRANSMIT, whole, when it is emitted (70_reset_and_hazards.md R151, C-1). -/
def emit (o : Output) (s : State) : State :=
  { s with
    outputs := s.outputs ++ [o]
    playing := match o with
      | .transmit F next => s.playing ++ [⟨F, next⟩]
      | .done _ => s.playing
      | .error _ => s.playing }

/-- Taking an error, the block's exception: `raise X(info)` writes `lastError <- code(X)` and emits ERROR
(60_exceptions.md R130). No control transfer, no saved state, `info` is not recorded (R133); there is no return
operation (R134): the sequencer goes on from the state its rule leaves. -/
def raise (e : ErrorCode) (s : State) : State := emit (.error e.bits) { s with lastError := e.bits }

/-- The three effects of a dispatch: `frameIndex <- index`, `inFlight <- 1`, one TRANSMIT (42_sequencer.md R123). -/
def dispatchAs (index next : Word32) (F : List Byte) (s : State) : State :=
  emit (.transmit F next) { s with frameIndex := index, inFlight := true }

/-- `dispatch(index, F)`, with `nextIndex = index + 1` (42_sequencer.md R118, R123). -/
def dispatch (index : Nat) (F : List Byte) (s : State) : State :=
  dispatchAs (BitVec.ofNat 32 index) (BitVec.ofNat 32 (index + 1)) F s

/-- The end of the sequence: `frameIndex <- index`, `status <- Idle`, `emit DONE(index)` (42_sequencer.md R124). -/
def endSequence (index : Word32) (s : State) : State :=
  emit (.done index) (setIdle { s with frameIndex := index })

/-- `buildControlFrame` with its precondition, a length below 2^32 (40_frame_encoder.md R77). -/
def callBuildControlFrame (B : List Byte) : Except Fault (List Byte) :=
  if B.length < 2 ^ 32 then .ok (buildControlFrame Config.providers B) else .error .encoderPrecondition

/-- `buildDataFrame` with its precondition: a chunk of 1 to 256 bytes and a block number below 2^16, never padded,
cut or truncated outside it (40_frame_encoder.md R82, 60_exceptions.md R137). -/
def callBuildDataFrame (C : List Byte) (k : Nat) : Except Fault (List Byte) :=
  if chunkOk C ∧ k < maxBlocks then .ok (buildDataFrame Config.providers C (BitVec.ofNat 16 k))
  else .error .encoderPrecondition

/-- A result of an operation run by itself is left in the frame space (20_memory.md R36; log 9). -/
def leaveResult (r : Except Fault (List Byte)) (s : State) : Host.Outcome State Fault Refusal :=
  match r with
  | .ok F => .next { s with work := F }
  | .error f => .fault f

/-- Reset of the core: every register takes its reset value and no buffer is owned; the channels, the driver's playback
and what was emitted are untouched, and no event is emitted (70_reset_and_hazards.md R146; log 21). -/
def resetCore (s : State) : State :=
  { s with
    status := .idle
    frameIndex := 0
    playCount := 0
    srcLen := 0
    inFlight := false
    lastError := 0
    src := Memory.empty }

end Sys2Proof.Machine
end

