-- ==== Sys2Proof/Machine/EncoderOps.lean ====
section
/-! DEFINITION. The meanings of the encoder's operations and of the two frame formats run by themselves: each leaves its
bytes in the frame space and writes no register (40_frame_encoder.md R75; log 9). -/

namespace Sys2Proof.Machine

/-- CONTROL_FRAME: the 37 bytes of the format are laid out (30_encoding.md R57, R63). -/
def execControlFrame (f : ControlFields) (s : State) : Host.Outcome State Fault Refusal :=
  leaveResult (.ok (controlBytes f)) s

/-- DATA_FRAME: the 271 bytes of the format are laid out and striped (30_encoding.md R60, R62). -/
def execDataFrame (f : DataFields) (s : State) : Host.Outcome State Fault Refusal :=
  leaveResult (.ok (dataBytes f)) s

/-- BUILD_CONTROL_FRAME (40_frame_encoder.md R77). -/
def execBuildControlFrame (B : List Byte) (s : State) : Host.Outcome State Fault Refusal :=
  leaveResult (callBuildControlFrame B) s

/-- BUILD_DATA_FRAME (40_frame_encoder.md R81, R82). -/
def execBuildDataFrame (C : List Byte) (k : Nat) (s : State) : Host.Outcome State Fault Refusal :=
  leaveResult (callBuildDataFrame C k) s

/-- PAD: a chunk of 1 to 256 bytes is padded to the payload (40_frame_encoder.md R83). -/
def execPad (C : List Byte) (s : State) : Host.Outcome State Fault Refusal :=
  leaveResult (if chunkOk C then .ok (padChunk C) else .error .encoderPrecondition) s

/-- STRIPE: an assembled DataFrame of 271 bytes is striped (40_frame_encoder.md R85). -/
def execStripe (F : List Byte) (s : State) : Host.Outcome State Fault Refusal :=
  leaveResult (if F.length = dataLen then .ok (stripe F) else .error .encoderPrecondition) s

end Sys2Proof.Machine
end

