-- ==== Sys2Proof/Machine/Sequencer.lean ====
section
/-! DEFINITION. The sequencer's internal operation `step(index)` and the row STEP (42_sequencer.md R118 to R126). -/

namespace Sys2Proof.Machine

/-- The control step: a ControlFrame of the whole buffer is dispatched (R120). The encoder's precondition holds because
`srcLen` is a 32-bit register (40_frame_encoder.md R77). -/
def controlStep (index : Nat) (s : State) : Except Fault State :=
  match memRead 0 s.srcLen.toNat s with
  | .ok B => .ok (dispatch index (buildControlFrame Config.providers B) s)
  | .error f => .error f

/-- The data step of block `i = index - 2`: its chunk is read, built and dispatched (R121, R122). The block number is
passed whole, so that one outside 16 bits faults and is never truncated (92_eei_decisions.md D32; log 18). -/
def dataStep (index : Nat) (s : State) : Except Fault State :=
  let i := index - 2
  match memRead (chunkSize * i) (chunkLength s.srcLen.toNat i) s with
  | .ok C =>
    match callBuildDataFrame C i with
    | .ok F => .ok (dispatch index F s)
    | .error f => .error f
  | .error f => .error f

/-- A completed pass under LOOP: `playCount <- (playCount + 1) mod 2^32` (R125). -/
def countPass (s : State) : State := { s with playCount := s.playCount + 1 }

/-- `step(index)` (R118): the cancellation check (R119), the control step (R120), the data step (R121), the wrap of LOOP,
which performs `step(2)`, a data step, in the same event (R125), or the end of the sequence (R124). An index above
`2 + blocks` while Sending is a state the rules never reach (R126), in which the model faults
(93_implementation_defined.md U15; log 13). -/
def sequencerStep (index : Word32) (s : State) : Except Fault State :=
  if s.status = .idle then .ok s
  else if ctrlRepeat + s.blocks < index.toNat then .error .stepPastEnd
  else if index.toNat < ctrlRepeat then controlStep index.toNat s
  else if index.toNat - 2 < s.blocks then dataStep index.toNat s
  else if s.endPolicy = .loop ∧ 1 ≤ s.blocks then dataStep 2 (countPass s)
  else .ok (endSequence index s)

/-- STEP `index`. -/
def execStep (index : Word32) (s : State) : Host.Outcome State Fault Refusal := outcomeOf (sequencerStep index s)

end Sys2Proof.Machine
end

