-- ==== Sys2Proof/Machine/InputEvents.lean ====
section
/-! DEFINITION. The meanings of the input events START, STOP, COMPLETE and LOAD_FAIL (42_sequencer.md R110 to R117). -/

namespace Sys2Proof.Machine

/-- The session takes ownership of the presented buffer and starts (R110): SRC, `srcLen`, `frameIndex`, `playCount`,
`lastError` and `status` are written. -/
def openSession (L : Word32) (s : State) : State :=
  setSending { s with src := s.presented, srcLen := L, frameIndex := 0, playCount := 0, lastError := ErrorCode.none.bits }

/-- START `L` (R110). A presented buffer of another length is refused (30_encoding.md R71); then the guards in their
fixed order (60_exceptions.md R135): a no-op while Sending (R111), no effect while a frame is in flight (R112: the
channels keep such a START unconsumed; log 20), RANGE_OVERFLOW above MAX_LEN (R113), else the session is opened and `step(0)`
runs. -/
def execStart (L : Word32) (s : State) : Host.Outcome State Fault Refusal :=
  if s.presents L then
    if s.status = .sending then .next s
    else if s.inFlight then .next s
    else if maxLen < L.toNat then .next (raise .rangeOverflow s)
    else outcomeOf (sequencerStep 0 (openSession L s))
  else .refused .bufferLengthMismatch

/-- STOP: `status <- Idle`, nothing else (R115). -/
def execStop (s : State) : Host.Outcome State Fault Refusal := .next (setIdle s)

/-- COMPLETE `n` (R116): spurious when nothing is in flight; else `inFlight <- 0`, and either the session is aborted on a
wrong echo or `step(n)` runs, cancelled at once while Idle. -/
def execComplete (n : Word32) (s : State) : Host.Outcome State Fault Refusal :=
  if s.inFlight = false then .next (raise .spuriousCompletion s)
  else if n.toNat ≠ s.expectedEcho then .next (raise .completionMismatch (setIdle (clearInFlight s)))
  else outcomeOf (sequencerStep n (clearInFlight s))

/-- LOAD_FAIL: TRANSPORT_FAILURE is raised, no other change (R117). -/
def execLoadFail (s : State) : Host.Outcome State Fault Refusal := .next (raise .transportFailure s)

end Sys2Proof.Machine
end

