-- ==== Sys2Proof/Machine/OutputEvents.lean ====
section
/-! DEFINITION. The meanings of the output rows TRANSMIT, DONE and ERROR run by themselves: the effects of the rule that
emits each (42_sequencer.md R123, R124; 60_exceptions.md R130; log 8). And the event word of an output
(30_encoding.md R67, R69). -/

namespace Sys2Proof.Machine

/-- TRANSMIT `nextIndex`: the dispatch of the frame that stands in the frame space, at index `nextIndex - 1` (R123). No
index has `nextIndex = 0`: the index written there is a free value (log 10). Bytes that are no frame of the two formats
are never sent (30_encoding.md R66). -/
def execTransmit (next : Word32) (s : State) : Host.Outcome State Fault Refusal :=
  if isFrame s.work then
    if next = 0 then .next (dispatchAs (Config.freeIndex s.draws) next s.work { s with draws := s.draws + 1 })
    else .next (dispatch (next.toNat - 1) s.work s)
  else .fault .noFrame

/-- DONE `endIndex`: the end of the sequence at that index (R124). -/
def execDone (endIndex : Word32) (s : State) : Host.Outcome State Fault Refusal := .next (endSequence endIndex s)

/-- ERROR `zext_32(code)`: the raise of that code (R130); a reserved code is never raised (R129; log 11). -/
def execError (arg : Word32) (s : State) : Host.Outcome State Fault Refusal :=
  match ErrorCode.ofArg arg with
  | some e => .next (raise e s)
  | Option.none => .fault .reservedErrorCode

/-- The event word of an output (30_encoding.md R69). -/
def Output.word : Output → EventWord
  | .transmit _ next => eventWord codeTransmit next
  | .done endIndex => eventWord codeDone endIndex
  | .error code => eventWord codeError (code.zeroExtend 32)

/-- An output goes to the ChannelDriver; every other goes to the Host (R69). -/
def Output.toDriver : Output → Bool
  | .transmit _ _ => true
  | .done _ => false
  | .error _ => false

end Sys2Proof.Machine
end

