-- ==== Sys2Proof/Machine/Dispatch.lean ====
section
/-! DEFINITION. The meaning of every instruction, one arm each. -/

namespace Sys2Proof.Machine

def exec (i : Instr) (s : State) : Host.Outcome State Fault Refusal :=
  match i with
  | .controlFrame f => Sys2Proof.Machine.execControlFrame f s
  | .dataFrame f => Sys2Proof.Machine.execDataFrame f s
  | .start len => Sys2Proof.Machine.execStart len s
  | .stop => Sys2Proof.Machine.execStop s
  | .complete n => Sys2Proof.Machine.execComplete n s
  | .loadFail => Sys2Proof.Machine.execLoadFail s
  | .transmit next => Sys2Proof.Machine.execTransmit next s
  | .done endIndex => Sys2Proof.Machine.execDone endIndex s
  | .error arg => Sys2Proof.Machine.execError arg s
  | .step index => Sys2Proof.Machine.execStep index s
  | .buildControlFrame buffer => Sys2Proof.Machine.execBuildControlFrame buffer s
  | .buildDataFrame chunk k => Sys2Proof.Machine.execBuildDataFrame chunk k s
  | .pad chunk => Sys2Proof.Machine.execPad chunk s
  | .stripe frame => Sys2Proof.Machine.execStripe frame s

end Sys2Proof.Machine
end

