-- ==== Sys2Proof/Machine/Step.lean ====
section
/-! DEFINITION. One step of the core (00_scope.md R6, 42_sequencer.md R105): it consumes one input event, atomically. -/

namespace Sys2Proof.Machine

/-- One step. Sending with nothing in flight between events faults (60_exceptions.md R137;
log 23). With no enabled head the core
waits, and its state is the same (R153, 145; log 4). A reserved word is refused (R136). -/
def step (s : State) : Host.Outcome State Fault Refusal :=
  if s.status = .sending ∧ s.inFlight = false then .fault .sendingWithoutFrame
  else
    match fetch s with
    | none => .next s
    | some f =>
      match interpret f.source f.item with
      | .error r => .refused r
      | .ok i => exec i f.rest

/-- The state with a word of spec/opcode_table.json placed where `step` takes its next transaction; a number of bits that
is no row's leaves the state as it is. -/
def State.withFetchWord (s : State) (nbits w : Nat) : State :=
  match tableTransaction nbits w with
  | some t => placeWord s t
  | none => s

end Sys2Proof.Machine
end

