-- ==== Sys2Proof/Machine/Checks.lean ====
section
/-! DEFINITION. The check predicates of a receiver or a test, and the coverage map of the hashes
(41_hash_integration.md R100 to R103). The core evaluates none of them (R104). -/

namespace Sys2Proof.Machine

/-- A ControlFrame passes its header check (R101). -/
def controlCheck (H : Providers) (F : List Byte) : Bool :=
  fromLe (slice F 32 36) == (H.hash32 (slice F 12 32) seedHeader).toNat && F[7]? == some ctrlVersion &&
    F[36]? == some terminatorByte

/-- A buffer is the one a ControlFrame announces (R102). -/
def contentCheck (H : Providers) (F B : List Byte) : Bool :=
  fromLe (slice F 8 12) == B.length && fromLe (slice F 12 16) == (H.hash32 B seedContent).toNat &&
    slice F 16 32 == (H.digest128 B).toList

/-- A DataFrame as sent carries chunk `C` as block `k` (R103): every field is checked after un-striping. -/
def dataCheck (H : Providers) (G C : List Byte) (k : Nat) : Bool :=
  let U := stripe G
  fromLe (slice U 266 270) == (H.hash32 (slice U 7 266) seedHeader).toNat && U[7]? == some dataVersion &&
    fromLe (slice U 8 10) == k && slice U 10 (10 + C.length) == C &&
    slice U (10 + C.length) 266 == rep (256 - C.length) padByte

/-- What covers a frame byte (R100). -/
inductive Coverage where
  /-- No hash covers the byte. -/
  | uncovered
  /-- `headerHash` covers it. -/
  | headerHash
  /-- `blockHash` covers its value before striping. -/
  | blockHash
  /-- It is a byte of the frame's own last hash. -/
  | ownHash
  deriving DecidableEq, Repr

/-- The coverage of the bytes of a ControlFrame (R100). -/
def controlCoverage (p : Nat) : Coverage :=
  if 12 ≤ p ∧ p < 32 then .headerHash else if 32 ≤ p ∧ p < 36 then .ownHash else .uncovered

/-- The coverage of the bytes of a DataFrame (R100). -/
def dataCoverage (p : Nat) : Coverage :=
  if 7 ≤ p ∧ p < 266 then .blockHash else if 266 ≤ p ∧ p < 270 then .ownHash else .uncovered

end Sys2Proof.Machine
end

