-- ==== Sys2Proof/Machine/Trace.lean ====
section
/-! DEFINITION. The lines of the trace notation (30_encoding.md R72, R73) and the event word of each. -/

namespace Sys2Proof.Machine

/-- One line of a trace: exactly one event (R73). -/
inductive TraceLine where
  /-- `START <L>` -/
  | start (L : Word32)
  /-- `STOP` -/
  | stop
  /-- `COMPLETE <n>` -/
  | complete (n : Word32)
  /-- `LOAD_FAIL` -/
  | loadFail
  /-- `TRANSMIT CTRL next=<n>` -/
  | transmitCtrl (next : Word32)
  /-- `TRANSMIT DATA k=<i> next=<n>` -/
  | transmitData (k : Nat) (next : Word32)
  /-- `DONE <n>` -/
  | done (n : Word32)
  /-- `ERROR <NAME>` -/
  | error (name : ErrorCode)
  deriving DecidableEq, Repr

/-- "The encoding of each line is the EVT word of rule R67" (R72). -/
def TraceLine.word : TraceLine → EventWord
  | .start L => eventWord codeStart L
  | .stop => eventWord codeStop 0
  | .complete n => eventWord codeComplete n
  | .loadFail => eventWord codeLoadFail 0
  | .transmitCtrl next => eventWord codeTransmit next
  | .transmitData _ next => eventWord codeTransmit next
  | .done n => eventWord codeDone n
  | .error name => eventWord codeError (name.bits.zeroExtend 32)

/-- The line of an output. The type byte tells the two frames apart (R64), and the block number is not striped
(40_frame_encoder.md R84); bytes of no format and reserved codes have no line. -/
def Output.line : Output → Option TraceLine
  | .transmit F next =>
    if F[7]? = some ctrlVersion then some (.transmitCtrl next)
    else if F[7]? = some dataVersion then some (.transmitData (fromLe (slice F 8 10)) next)
    else Option.none
  | .done n => some (.done n)
  | .error code => (ErrorCode.ofBits code).map TraceLine.error

end Sys2Proof.Machine
end

