-- ==== Sys2Proof/Machine/Environment.lean ====
section
/-! DEFINITION. The moves of the external agents, between steps of the core (00_scope.md R8, 10_state.md R34,
70_reset_and_hazards.md R149 to R151). None is a step: the core never schedules them (log 15). A move an agent does not
have is `none`. -/

namespace Sys2Proof.Machine

/-- An agent on the control channel sends a word with a buffer beside it (60_exceptions.md R140). -/
def postControl (item : ControlItem) (s : State) : State := { s with control := s.control ++ [item] }

/-- The agent on the completion channel sends a word (60_exceptions.md R140). -/
def postCompletion (w : EventWord) (s : State) : State := { s with completion := s.completion ++ [w] }

/-- The Host sends START with a buffer; a word can only carry a length below 2^32 (30_encoding.md R68, R71). The bytes are
fixed when the word is posted: no move changes the buffer beside a START that waits or is held. DESIGN CHOICE, unsafe:
the Host owns that buffer until the START is accepted (20_memory.md R39), and H-1 of R150 forbids a change only while
Sending (log 25). -/
def hostStart (B : Memory) (s : State) : Option State :=
  if B.len < 2 ^ 32 then some (postControl ⟨eventWord codeStart (BitVec.ofNat 32 B.len), B⟩ s) else none

/-- The Host sends STOP; it may at any time (R150, H-6). -/
def hostStop (s : State) : State := postControl ⟨eventWord codeStop 0, Memory.empty⟩ s

/-- The Host reuses its buffer: allowed while Idle (R39, H-3), no move while Sending (R38, H-1). -/
def hostReuseBuffer (B : Memory) (s : State) : Option State :=
  if s.status = .idle then some { s with src := B } else none

/-- The SourceLoader begins a load (R149 item 5). -/
def loaderBegin (s : State) : State := { s with loading := true }

/-- The SourceLoader delivers a buffer once, which becomes START (R149 item 5). -/
def loaderDeliver (B : Memory) (s : State) : Option State :=
  if s.loading then hostStart B { s with loading := false } else none

/-- The SourceLoader's load fails, which becomes LOAD_FAIL (R149 item 5, 42_sequencer.md R117). -/
def loaderFail (s : State) : Option State :=
  if s.loading then some (postControl ⟨eventWord codeLoadFail 0, Memory.empty⟩ { s with loading := false }) else none

/-- The ChannelDriver finishes its oldest frame and sends one COMPLETE that echoes its index (R151, C-2); no move where it
plays nothing (C-3). That the oldest goes first, where a reset during playback leaves it two frames (R148), is a DESIGN
CHOICE, unsafe: the spec gives no order (log 24). -/
def driverFinish (s : State) : Option State :=
  match s.playing with
  | [] => none
  | p :: ps => some (postCompletion (eventWord codeComplete p.next) { s with playing := ps })

end Sys2Proof.Machine
end

