-- ==== Sys2Proof/Safety.lean ====
section
/-! DEFINITION. What counts as a safe state and a safe run, in the terms the statements use: the invariant of the rules'
reachable states, the handshake with an honest ChannelDriver, the end of a run, and the run of a session under a driver
that completes every frame. -/

namespace Sys2Proof

open Machine

/-- The facts that hold between events in every state the rules reach. -/
structure Inv (s : State) : Prop where
  /-- 42_sequencer.md R108. -/
  sending_inFlight : s.status = .sending → s.inFlight = true
  /-- 10_state.md R27: START refuses longer buffers. -/
  srcLen_le : s.srcLen.toNat ≤ maxLen
  /-- 20_memory.md R37: while a session is active, `len(SRC) = srcLen`. -/
  src_len : s.status = .sending → s.src.len = s.srcLen.toNat
  /-- 10_state.md R25. -/
  index_le : s.frameIndex.toNat ≤ 2 + s.blocks
  /-- 42_sequencer.md R126: the index of a frame in flight is that of a dispatched frame. -/
  index_inFlight : s.inFlight = true → s.frameIndex.toNat ≤ 1 + s.blocks
  /-- 60_exceptions.md R129: codes 5 to 7 are never raised. -/
  error_le : s.lastError.toNat ≤ 4
  /-- 10_state.md R26: under STOP `playCount` stays 0. -/
  playCount_zero : s.endPolicy = .stop → s.playCount = 0
  /-- The source buffer is in canonical form. -/
  src_wf : s.src.wf = true
  /-- The presented buffer is in canonical form. -/
  presented_wf : s.presented.wf = true
  /-- Every buffer waiting on the control channel is in canonical form. -/
  control_wf : ∀ c ∈ s.control, c.side.wf = true
  /-- The model's own port is empty: only the events of the two channels move the core. -/
  port_empty : s.port = none

/-- The ChannelDriver is honest so far (70_reset_and_hazards.md R151, C-2 and C-3): while a frame is in flight exactly one
echo is due, on the channel or still in playback, and it is the right one; otherwise none is. -/
def Handshake (s : State) : Prop :=
  if s.inFlight = true then
    ∃ next : Word32, next.toNat = s.expectedEcho ∧
      ((∃ F, s.playing = [⟨F, next⟩] ∧ s.completion = []) ∨
       (s.playing = [] ∧ s.completion = [eventWord codeComplete next]))
  else s.playing = [] ∧ s.completion = []

/-- A run is over (70_reset_and_hazards.md R155): Idle, nothing in flight, both channels empty, and so no START held. -/
def RunOver (s : State) : Prop :=
  s.status = .idle ∧ s.inFlight = false ∧ s.control = [] ∧ s.completion = []

/-- The core has no enabled move (70_reset_and_hazards.md R153). -/
def Stuck (s : State) : Prop := fetch s = none

/-- A round of a ChannelDriver that completes every frame: it finishes its oldest frame, and the core steps once. -/
def driverRound (s : State) : Host.Outcome State Fault Refusal :=
  match driverFinish s with
  | none => .next s
  | some s' => step s'

/-- `k` rounds, stopping at the first fault or refusal. -/
def driverRounds : Nat → State → Host.Outcome State Fault Refusal
  | 0, s => .next s
  | k + 1, s =>
    match driverRound s with
    | .next s' => driverRounds k s'
    | .fault f => .fault f
    | .refused r => .refused r

/-- The chunk of block `i` of a buffer (42_sequencer.md R122). -/
def chunkOf (B : Memory) (i : Nat) : List Byte := B.bytes (256 * i) (chunkLength B.len i)

/-- The DataFrame of block `i` of a buffer (42_sequencer.md R121). -/
def dataFrameOf (B : Memory) (i : Nat) : List Byte :=
  buildDataFrame Config.providers (chunkOf B i) (BitVec.ofNat 16 i)

/-- The ControlFrame of a buffer (42_sequencer.md R120). -/
def controlFrameOf (B : Memory) : List Byte := buildControlFrame Config.providers (B.bytes 0 B.len)

/-- The TRANSMIT of data block `i`, at index `2 + i` (42_sequencer.md R121). -/
def transmitBlock (B : Memory) (i : Nat) : Output := .transmit (dataFrameOf B i) (BitVec.ofNat 32 (i + 3))

/-- What a session of a buffer emits under STOP: two control frames, one data frame per block, DONE
(42_sequencer.md R127). -/
def sessionOutputs (B : Memory) : List Output :=
  [.transmit (controlFrameOf B) 1, .transmit (controlFrameOf B) 2] ++
    (List.range (blocksOf B.len)).map (transmitBlock B) ++ [.done (BitVec.ofNat 32 (2 + blocksOf B.len))]

end Sys2Proof
end

