-- ==== Sys2Proof/Certificates/Slice0/Obligations.lean ====
section
/-! DEFINITION. The statements for the provers. Each docstring names the rules of spec/ it formalises. -/

open Sys2Proof Sys2Proof.Machine

/-! ## Encoding -/

/-- Decoding the encoding of a well-formed instruction gives it back, for every instruction that has an encoding
(30_encoding.md R57, R60, R62, R67). -/
def Obligations.DecodeOfEncodeIsTheInstruction : Prop :=
  ∀ (i : Instr) (t : Transaction), i.wellFormed = true → encode i = some t → decode t = .ok i

/-- Each word and each frame has one meaning: what decodes is the encoding of what it decodes to (30_encoding.md R64,
R67, 40_frame_encoder.md R88). -/
def Obligations.EncodeOfDecodeIsTheTransaction : Prop :=
  ∀ (t : Transaction) (i : Instr), decode t = .ok i → encode i = some t

/-- The decoder follows spec/opcode_table.json (30_encoding.md R74): a decoded transaction has the bits of its row, and an
event word with the bits of a 40-bit row decodes to an instruction of that row. -/
def Obligations.DecoderFollowsTheOpcodeTable : Prop :=
  (∀ (t : Transaction) (i : Instr), decode t = .ok i → ∃ r, i.row = some r ∧ r.selects t.tableBits = true) ∧
  (∀ (w : EventWord) (r : TableRow), r ∈ tableRows → r.nbits = 40 → r.selects w.toNat = true →
    ∃ i, decode (.event w) = .ok i ∧ i.row = some r)

/-- Words written out from the spec's tables decode to their instructions (30_encoding.md R68, R69;
95_test_vectors.md 4.2). -/
def Obligations.WordsOfTheSpecDecode : Prop :=
  decode (.event 0x010000012C) = .ok (.start 300) ∧ decode (.event 0x0200000000) = .ok .stop ∧
  decode (.event 0x0300000003) = .ok (.complete 3) ∧ decode (.event 0x0400000000) = .ok .loadFail ∧
  decode (.event 0x1000000004) = .ok (.transmit 4) ∧ decode (.event 0x1100000004) = .ok (.done 4) ∧
  decode (.event 0x1200000002) = .ok (.error 2) ∧
  (decodeTableWord 64 0x00000000AA554281).bind Instr.row = some ⟨64, 0x00000000AA554281, 0xFFFFFFFFFFFFFFFF⟩ ∧
  (decodeTableWord 64 0x00000000AA554201).bind Instr.row = some ⟨64, 0x00000000AA554201, 0xFFFFFFFFFFFFFFFF⟩

/-- A reserved input word is refused and is no no-op: codes `0x00` and `0x05` to `0xFF`, and STOP or LOAD_FAIL with
`arg ≠ 0` (30_encoding.md R70), whichever channel it is taken from. -/
def Obligations.ReservedInputIsRefused : Prop :=
  ∀ (s : State) (f : Fetched) (w : EventWord), ¬(s.status = .sending ∧ s.inFlight = false) →
    fetch s = some f → f.source ≠ .port → f.item = .event w →
    (eventCode w = 0x00 ∨ 0x05 ≤ eventCode w ∨
      ((eventCode w = 0x02 ∨ eventCode w = 0x04) ∧ eventArg w ≠ 0)) →
    ∃ r, step s = .refused r

/-- A START whose presented buffer has another length than its argument is refused (30_encoding.md R71).
That this comes before the other guards is the model's choice (log 6). -/
def Obligations.MalformedStartIsRefused : Prop :=
  ∀ (s : State) (L : Word32), s.presented.len ≠ L.toNat → exec (.start L) s = .refused .bufferLengthMismatch

/-! ## Frame encoder and hash integration -/

/-- 40_frame_encoder.md R77: the bytes of `buildControlFrame`, for every pair of providers. -/
def Obligations.ControlFrameLayout : Prop :=
  ∀ (H : Providers) (B : List Byte), B.length < 2 ^ 32 →
    let h1 := H.hash32 B 0x32D0BABE
    let d := (H.digest128 B).toList
    buildControlFrame H B = [0x00, 0x00, 0x00, 0x00, 0xAA, 0x55, 0x42] ++ [0x81] ++ le 4 B.length ++ le 4 h1.toNat ++ d ++
      le 4 (H.hash32 (le 4 h1.toNat ++ d) 0xDEADBEEF).toNat ++ [0xFF] ∧ d.length = 16

/-- 40_frame_encoder.md R81: the bytes of `buildDataFrame`, for every pair of providers. -/
def Obligations.DataFrameLayout : Prop :=
  ∀ (H : Providers) (C : List Byte) (k : BitVec 16), 0 < C.length → C.length ≤ 256 →
    let covered := [(0x01 : Byte)] ++ le 2 k.toNat ++ C ++ rep (256 - C.length) 0xFF
    buildDataFrame H C k = stripe ([0x00, 0x00, 0x00, 0x00, 0xAA, 0x55, 0x42] ++ covered ++
      le 4 (H.hash32 covered 0xDEADBEEF).toNat ++ [0xFF]) ∧ covered.length = 259

/-- 40_frame_encoder.md R78, 41_hash_integration.md R101 and R102, spelled out. -/
def Obligations.ControlFrameChecks : Prop :=
  ∀ (H : Providers) (B : List Byte), B.length < 2 ^ 32 →
    let F := buildControlFrame H B
    F.length = 37 ∧ fromLe (slice F 32 36) = (H.hash32 (slice F 12 32) 0xDEADBEEF).toNat ∧ F[7]? = some 0x81 ∧ F[36]? = some 0xFF ∧
    fromLe (slice F 8 12) = B.length ∧ fromLe (slice F 12 16) = (H.hash32 B 0x32D0BABE).toNat ∧
    slice F 16 32 = (H.digest128 B).toList

/-- 41_hash_integration.md R97: the three provider calls in their order, where each result is placed, and that the frame
depends on the providers through these calls only. -/
def Obligations.ControlFrameProviderCalls : Prop :=
  ∀ (H : Providers) (B : List Byte),
    let F := buildControlFrame H B
    controlCalls H B = [.hash32 B 0x32D0BABE, .digest128 B, .hash32 (slice F 12 32) 0xDEADBEEF] ∧
    slice F 12 16 = le 4 (H.hash32 B 0x32D0BABE).toNat ∧ slice F 16 32 = (H.digest128 B).toList ∧
    slice F 12 32 = le 4 (H.hash32 B 0x32D0BABE).toNat ++ (H.digest128 B).toList ∧
    slice F 32 36 = le 4 (H.hash32 (slice F 12 32) 0xDEADBEEF).toNat ∧
    ∀ H' : Providers, H'.hash32 B 0x32D0BABE = H.hash32 B 0x32D0BABE → H'.digest128 B = H.digest128 B →
      H'.hash32 (slice F 12 32) 0xDEADBEEF = H.hash32 (slice F 12 32) 0xDEADBEEF → buildControlFrame H' B = F

/-- 41_hash_integration.md R98: the one provider call, over the 259 bytes after padding and before striping, its place,
and that the frame depends on the providers through this call only. -/
def Obligations.DataFrameProviderCall : Prop :=
  ∀ (H : Providers) (C : List Byte) (k : BitVec 16), 0 < C.length → C.length ≤ 256 →
    let G := buildDataFrame H C k
    let input := [(0x01 : Byte)] ++ le 2 k.toNat ++ (C ++ rep (256 - C.length) 0xFF)
    dataCalls C k = [.hash32 input 0xDEADBEEF] ∧ input.length = 259 ∧ slice (stripe G) 7 266 = input ∧
    slice G 266 270 = le 4 (H.hash32 input 0xDEADBEEF).toNat ∧
    ∀ H' : Providers, H'.hash32 input 0xDEADBEEF = H.hash32 input 0xDEADBEEF → buildDataFrame H' C k = G

/-- 40_frame_encoder.md R84 of the frame as sent, and 41_hash_integration.md R103, the un-striping law of
40_frame_encoder.md R89 for every field. -/
def Obligations.DataFrameFields : Prop :=
  ∀ (H : Providers) (C : List Byte) (k : BitVec 16), 0 < C.length → C.length ≤ 256 →
    let G := buildDataFrame H C k
    let U := stripe G
    G.length = 271 ∧ G[7]? = some 0x01 ∧ fromLe (slice G 8 10) = k.toNat ∧ G[270]? = some 0xFF ∧
    fromLe (slice U 266 270) = (H.hash32 (slice U 7 266) 0xDEADBEEF).toNat ∧ U[7]? = some 0x01 ∧
    fromLe (slice U 8 10) = k.toNat ∧ slice U 10 (10 + C.length) = C ∧
    slice U (10 + C.length) 266 = rep (256 - C.length) 0xFF

/-- 40_frame_encoder.md R88, for byte sequences of every length. -/
def Obligations.StripeTwiceIsIdentity : Prop := ∀ F : List Byte, stripe (stripe F) = F

/-- 40_frame_encoder.md R86 and R87: `stripe` is a lane-wise XOR with a mask that is `0x55` at the 16 listed positions,
`0xAA` at the other 16, all of them in the payload, and `0x00` elsewhere. -/
def Obligations.StripeIsLanewiseXor : Prop :=
  let atA : List Nat := [14, 30, 46, 62, 78, 94, 110, 126, 142, 158, 174, 190, 206, 222, 238, 254]
  let atB : List Nat := [22, 38, 54, 70, 86, 102, 118, 134, 150, 166, 182, 198, 214, 230, 246, 262]
  (∀ p ∈ atA ++ atB, 10 ≤ p ∧ p < 266) ∧
  ∀ F : List Byte, F.length = 271 → (stripe F).length = 271 ∧
    ∀ p b, F[p]? = some b →
      (stripe F)[p]? = some (b ^^^ (if p ∈ atA then 0x55 else if p ∈ atB then 0xAA else 0x00))

/-- 40_frame_encoder.md R90: what padding is sent as, the two bytes other than `0xFF` in a period of padding, and that
chunk bytes carry no such guarantee. -/
def Obligations.PaddingBreaksRunsOfOnes : Prop :=
  ∀ (H : Providers) (C : List Byte) (k : BitVec 16), 0 < C.length → C.length ≤ 256 →
    let G := buildDataFrame H C k
    (∀ p, 10 + C.length ≤ p → p < 266 →
      (p % 16 = 14 → G[p]? = some 0xAA) ∧ (p % 16 = 6 → G[p]? = some 0x55)) ∧
    (∀ m, m < 16 → C.length ≤ 16 * m →
      ((slice G (10 + 16 * m) (26 + 16 * m)).filter (fun b => b != 0xFF)).length = 2) ∧
    (∀ j, (j % 16 = 4 → C[j]? = some 0xAA → G[10 + j]? = some 0xFF) ∧
      (j % 16 = 12 → C[j]? = some 0x55 → G[10 + j]? = some 0xFF))

/-- 41_hash_integration.md R100: a byte of a ControlFrame enters `headerHash`, and a byte of an un-striped DataFrame enters
`blockHash`, exactly where the coverage map says. -/
def Obligations.HashCoverageMap : Prop :=
  (∀ (F : List Byte) (p : Nat) (b : Byte), F.length = 37 →
    (slice (F.set p b) 12 32 = slice F 12 32 ↔ controlCoverage p ≠ .headerHash ∨ F[p]? = some b)) ∧
  (∀ (U : List Byte) (p : Nat) (b : Byte), U.length = 271 →
    (slice (U.set p b) 7 266 = slice U 7 266 ↔ dataCoverage p ≠ .blockHash ∨ U[p]? = some b))

/-- The chunks of a buffer, in the order of their blocks, are the buffer: nothing is lost, repeated or reordered
(42_sequencer.md R122). -/
def Obligations.ChunksMakeUpTheBuffer : Prop :=
  ∀ B : Memory, ((List.range (blocksOf B.len)).map (chunkOf B)).flatten = B.bytes 0 B.len

/-- 42_sequencer.md R122, the chunk lengths. -/
def Obligations.ChunkLengths : Prop :=
  ∀ L i : Nat, i < blocksOf L →
    (i + 1 < blocksOf L → chunkLength L i = 256) ∧
    (i + 1 = blocksOf L → chunkLength L i = L - 256 * (blocksOf L - 1) ∧ (chunkLength L i = 256 ↔ L % 256 = 0)) ∧
    1 ≤ chunkLength L i ∧ chunkLength L i ≤ 256 ∧ 256 * i + chunkLength L i ≤ L

/-- 42_sequencer.md R106: the block count, exact for every 32-bit length, and its values. The last clause, that `MAX_LEN` is
the largest length whose blocks all fit 16 bits, is the sentence of 00_scope.md R10, which the spec marks as derived. -/
def Obligations.BlockCount : Prop :=
  (∀ s : State, s.blocks = (s.srcLen.toNat + 255) / 256 ∧ 256 * s.blocks < s.srcLen.toNat + 256 ∧
    s.srcLen.toNat ≤ 256 * s.blocks) ∧
  blocksOf 0 = 0 ∧ blocksOf 1 = 1 ∧ blocksOf 256 = 1 ∧ blocksOf 257 = 2 ∧ blocksOf 300 = 2 ∧
  blocksOf 16777216 = 65536 ∧ blocksOf 4294967295 = 16777216 ∧ (∀ s : State, s.blocks = blocksOf s.srcLen.toNat) ∧
  ∀ L, blocksOf L ≤ 65536 ↔ L ≤ 16777216

/-! ## Rows run by themselves: what each leaves -/

/-- CONTROL_FRAME and DATA_FRAME lay out the bytes of their formats (30_encoding.md R57, R60) in the frame space and
change nothing else; that a row run by itself leaves its bytes there is the model's choice (log 9). -/
def Obligations.FrameRowsLayOutTheirBytes : Prop :=
  (∀ (f : ControlFields) (s : State), f.contentDigest.length = 16 → ∃ F,
    exec (.controlFrame f) s = .next { s with work := F } ∧ F.length = 37 ∧
    F = [0x00, 0x00, 0x00, 0x00, 0xAA, 0x55, 0x42, 0x81] ++ le 4 f.length.toNat ++ le 4 f.contentHash.toNat ++
      f.contentDigest ++ le 4 f.headerHash.toNat ++ [f.terminator]) ∧
  (∀ (f : DataFields) (s : State), f.payload.length = 256 → ∃ G,
    exec (.dataFrame f) s = .next { s with work := G } ∧ G.length = 271 ∧
    stripe G = [0x00, 0x00, 0x00, 0x00, 0xAA, 0x55, 0x42, 0x01] ++ le 2 f.blockNumber.toNat ++ f.payload ++
      le 4 f.blockHash.toNat ++ [f.terminator])

/-- BUILD_CONTROL_FRAME leaves the frame of 40_frame_encoder.md R77 and writes no register (R75); outside its precondition
it stops. Where the bytes are left is the model's choice (log 9), and that the stop is a fault (log 12). -/
def Obligations.BuildControlFrameCompletes : Prop :=
  ∀ (B : List Byte) (s : State),
    let h1 := Config.hash32 B 0x32D0BABE
    let d := (Config.digest128 B).toList
    let F := [0x00, 0x00, 0x00, 0x00, 0xAA, 0x55, 0x42, 0x81] ++ le 4 B.length ++ le 4 h1.toNat ++ d ++
      le 4 (Config.hash32 (le 4 h1.toNat ++ d) 0xDEADBEEF).toNat ++ [0xFF]
    (B.length < 2 ^ 32 → exec (.buildControlFrame B) s = .next { s with work := F }) ∧
    (2 ^ 32 ≤ B.length → exec (.buildControlFrame B) s = .fault .encoderPrecondition)

/-- BUILD_DATA_FRAME leaves the striped frame of 40_frame_encoder.md R81 and writes no register (R75); outside its
precondition it stops: no empty chunk is padded, no block number truncated, no chunk shortened (R82).
Where the bytes are left is the model's choice (log 9); the fault is log 12. -/
def Obligations.BuildDataFrameCompletes : Prop :=
  ∀ (C : List Byte) (k : Nat) (s : State),
    let covered := [(0x01 : Byte)] ++ le 2 k ++ (C ++ rep (256 - C.length) 0xFF)
    let F := [0x00, 0x00, 0x00, 0x00, 0xAA, 0x55, 0x42] ++ covered ++
      le 4 (Config.hash32 covered 0xDEADBEEF).toNat ++ [0xFF]
    (0 < C.length → C.length ≤ 256 → k < 65536 →
      exec (.buildDataFrame C k) s = .next { s with work := stripe F }) ∧
    (C.length = 0 ∨ 256 < C.length ∨ 65536 ≤ k → exec (.buildDataFrame C k) s = .fault .encoderPrecondition)

/-- PAD leaves the payload of 40_frame_encoder.md R83: 256 bytes, the chunk first, then `0xFF`; outside 1 to 256 bytes it
stops.
Where the bytes are left is the model's choice (log 9); the fault is log 12. -/
def Obligations.PadCompletes : Prop :=
  ∀ (C : List Byte) (s : State),
    (0 < C.length → C.length ≤ 256 → ∃ P, exec (.pad C) s = .next { s with work := P } ∧ P.length = 256 ∧
      P.take C.length = C ∧ ∀ j, C.length ≤ j → j < 256 → P[j]? = some 0xFF) ∧
    (C.length = 0 ∨ 256 < C.length → exec (.pad C) s = .fault .encoderPrecondition)

/-- STRIPE leaves the striped frame of 40_frame_encoder.md R85, lane by lane; on other than 271 bytes it stops.
Where the bytes are left is the model's choice (log 9); the fault is log 12. -/
def Obligations.StripeRowCompletes : Prop :=
  ∀ (F : List Byte) (s : State),
    (F.length = 271 → ∃ G, exec (.stripe F) s = .next { s with work := G } ∧ G.length = 271 ∧
      ∀ p b, F[p]? = some b →
        (8 ≤ p → p < 266 → p % 16 = 14 → G[p]? = some (b ^^^ 0x55)) ∧
        (8 ≤ p → p < 266 → p % 16 = 6 → G[p]? = some (b ^^^ 0xAA)) ∧
        (p < 8 ∨ 266 ≤ p ∨ (p % 16 ≠ 14 ∧ p % 16 ≠ 6) → G[p]? = some b)) ∧
    (F.length ≠ 271 → exec (.stripe F) s = .fault .encoderPrecondition)

/-- TRANSMIT performs the dispatch of 42_sequencer.md R123 with the frame beside it and changes nothing else; with
`nextIndex = 0` the index written is a free value and all else is as said (log 10); bytes of no format are never sent
(30_encoding.md R66).
That the row runs by itself is the model's choice (log 8). -/
def Obligations.TransmitDispatchesTheFrame : Prop :=
  ∀ (s : State) (next : Word32),
    (isFrame s.work = true → next ≠ 0 → exec (.transmit next) s =
      .next { s with
        frameIndex := next - 1
        inFlight := true
        outputs := s.outputs ++ [.transmit s.work next]
        playing := s.playing ++ [⟨s.work, next⟩] }) ∧
    (isFrame s.work = true → next = 0 → ∃ index, exec (.transmit next) s =
      .next { s with
        frameIndex := index
        inFlight := true
        draws := s.draws + 1
        outputs := s.outputs ++ [.transmit s.work next]
        playing := s.playing ++ [⟨s.work, next⟩] }) ∧
    (isFrame s.work = false → exec (.transmit next) s = .fault .noFrame)

/-- DONE performs the writes of the end of the sequence (42_sequencer.md R124) and changes nothing else.
That the row runs by itself is the model's choice (log 8, log 10). -/
def Obligations.DoneEndsTheSequence : Prop :=
  ∀ (s : State) (endIndex : Word32), exec (.done endIndex) s =
    .next { s with frameIndex := endIndex, status := .idle, outputs := s.outputs ++ [.done endIndex] }

/-- 60_exceptions.md R130: a raise writes `lastError` and emits ERROR, and writes no other register; codes 5 to 7 and
wider arguments are never raised (R129).
That the row runs by itself is the model's choice (log 8), and so are code 0 and the wide arguments (log 11). -/
def Obligations.ErrorRaisesItsCode : Prop :=
  ∀ (s : State) (arg : Word32),
    (arg.toNat ≤ 4 → exec (.error arg) s =
      .next { s with
        lastError := BitVec.ofNat 3 arg.toNat
        outputs := s.outputs ++ [.error (BitVec.ofNat 3 arg.toNat)] }) ∧
    (4 < arg.toNat → exec (.error arg) s = .fault .reservedErrorCode)

/-! ## Sequencer: the input events -/

/-- 42_sequencer.md R110: an accepted START opens the session on the presented buffer and dispatches the control frame of
index 0; nothing else changes. -/
def Obligations.StartOpensASession : Prop :=
  ∀ (s : State) (L : Word32), s.status = .idle → s.inFlight = false → s.presented.len = L.toNat → L.toNat ≤ 16777216 →
    let F := buildControlFrame Config.providers (s.presented.bytes 0 L.toNat)
    exec (.start L) s =
      .next { s with
        src := s.presented
        srcLen := L
        frameIndex := 0
        playCount := 0
        lastError := 0
        status := .sending
        inFlight := true
        outputs := s.outputs ++ [.transmit F 1]
        playing := s.playing ++ [⟨F, 1⟩] }

/-- 42_sequencer.md R111: START while Sending is consumed and has no effect, whatever its length. -/
def Obligations.StartWhileSendingIsNoOp : Prop :=
  ∀ (s : State) (f : Fetched) (L : Word32), s.status = .sending → s.inFlight = true → fetch s = some f →
    f.source = .control → decode f.item = .ok (.start L) → f.rest.presented.len = L.toNat →
    step s = .next f.rest ∧ (∃ c, s.control = c :: f.rest.control) ∧ f.rest.status = s.status ∧
    f.rest.frameIndex = s.frameIndex ∧ f.rest.playCount = s.playCount ∧ f.rest.srcLen = s.srcLen ∧
    f.rest.inFlight = s.inFlight ∧ f.rest.lastError = s.lastError ∧ f.rest.src = s.src ∧ f.rest.outputs = s.outputs ∧
    f.rest.playing = s.playing ∧ f.rest.completion = s.completion

/-- 42_sequencer.md R112: START while Idle with a frame in flight is not consumed, whatever stands on the completion
channel; with no COMPLETE nothing is taken; the COMPLETE lifts the hold, and the START at the head is then run. -/
def Obligations.StartIsHeldWhileAFrameIsInFlight : Prop :=
  ∀ (s : State) (c : ControlItem) (cs : List ControlItem) (L : Word32),
    s.status = .idle → s.inFlight = true → s.port = none → s.control = c :: cs →
    decode (.event c.word) = .ok (.start L) → c.side.len = L.toNat →
    (∀ f, fetch s = some f → f.source = .completion ∧ f.rest.control = s.control) ∧
    (s.completion = [] → fetch s = none) ∧
    (∀ n ws, s.completion = eventWord 0x03 n :: ws → ∃ t, step s = .next t ∧ t.status = .idle ∧ t.inFlight = false ∧
      t.control = s.control ∧ t.src = s.src ∧ t.completion = ws ∧
      (∀ F next, .transmit F next ∈ t.outputs → .transmit F next ∈ s.outputs) ∧
      (ws = [] → step t = exec (.start L) { t with control := cs, presented := c.side }))

/-- 42_sequencer.md R113: a START above MAX_LEN raises RANGE_OVERFLOW; no other register changes and the buffer is not
taken. -/
def Obligations.StartTooLongIsRejected : Prop :=
  ∀ (s : State) (L : Word32), s.status = .idle → s.inFlight = false → s.presented.len = L.toNat →
    16777216 < L.toNat →
    exec (.start L) s = .next { s with lastError := 2, outputs := s.outputs ++ [.error 2] }

/-- 42_sequencer.md R115: STOP writes `status` only. -/
def Obligations.StopWritesStatusOnly : Prop :=
  ∀ s : State, exec .stop s = .next { s with status := .idle }

/-- 42_sequencer.md R116: the three ways of COMPLETE. That the echo of 0 does not match `frameIndex = 2^32 - 1` is the
model's reading of 00_scope.md R13, exact arithmetic (log 17, DEDUCED). -/
def Obligations.CompleteChecksTheEcho : Prop :=
  ∀ (s : State) (n : Word32),
    (s.inFlight = false →
      exec (.complete n) s = .next { s with lastError := 4, outputs := s.outputs ++ [.error 4] }) ∧
    (s.inFlight = true → n.toNat ≠ s.frameIndex.toNat + 1 →
      exec (.complete n) s =
        .next { s with inFlight := false, status := .idle, lastError := 3, outputs := s.outputs ++ [.error 3] }) ∧
    (s.inFlight = true → n.toNat = s.frameIndex.toNat + 1 →
      exec (.complete n) s = exec (.step n) { s with inFlight := false })

/-- A COMPLETE with the right echo while Sending, result by result: the second control frame (42_sequencer.md R120), the
data frame of block `n - 2` (R121, R122), the wrap of LOOP (R125) or the end (R124); nothing else changes. An index past
the end, which no run reaches (R126), faults (93_implementation_defined.md U15; log 13). -/
def Obligations.CompleteAdvancesTheSession : Prop :=
  ∀ (s : State) (n : Word32), s.status = .sending → s.inFlight = true → n.toNat = s.frameIndex.toNat + 1 →
    s.src.len = s.srcLen.toNat → s.srcLen.toNat ≤ 16777216 →
    let sent (index : Nat) (F : List Byte) (u : State) : State :=
      { u with
        frameIndex := BitVec.ofNat 32 index
        outputs := u.outputs ++ [.transmit F (BitVec.ofNat 32 (index + 1))]
        playing := u.playing ++ [⟨F, BitVec.ofNat 32 (index + 1)⟩] }
    (n.toNat ≤ 2 + s.blocks → exec (.complete n) s = .next (
      if n.toNat < 2 then sent n.toNat (controlFrameOf s.src) s
      else if n.toNat < 2 + s.blocks then sent n.toNat (dataFrameOf s.src (n.toNat - 2)) s
      else if s.endPolicy = .loop ∧ 1 ≤ s.blocks then
        sent 2 (dataFrameOf s.src 0) { s with playCount := s.playCount + 1 }
      else
        { s with frameIndex := n, status := .idle, inFlight := false, outputs := s.outputs ++ [.done n] })) ∧
    (2 + s.blocks < n.toNat → exec (.complete n) s = .fault .stepPastEnd)

/-- 42_sequencer.md R117: LOAD_FAIL raises TRANSPORT_FAILURE, whatever the state, and changes nothing else. -/
def Obligations.LoadFailRaisesTransportFailure : Prop :=
  ∀ s : State, exec .loadFail s = .next { s with lastError := 1, outputs := s.outputs ++ [.error 1] }

/-! ## Sequencer: `step(index)` -/

/-- 42_sequencer.md R119: a step while Idle writes nothing, emits nothing and raises nothing, at every index and whatever
stands in the other registers and in SRC. -/
def Obligations.StepWhileIdleIsCancelled : Prop :=
  ∀ (s : State) (index : Word32), s.status = .idle → exec (.step index) s = .next s

/-- 42_sequencer.md R120: at index 0 and 1 the control frame of the entire buffer is dispatched. -/
def Obligations.StepSendsTheControlFrameTwice : Prop :=
  ∀ (s : State) (index : Word32), s.status = .sending → s.src.len = s.srcLen.toNat → index = 0 ∨ index = 1 →
    let F := buildControlFrame Config.providers (s.src.bytes 0 s.src.len)
    exec (.step index) s =
      .next { s with
        frameIndex := index
        inFlight := true
        outputs := s.outputs ++ [.transmit F (index + 1)]
        playing := s.playing ++ [⟨F, index + 1⟩] }

/-- 42_sequencer.md R121: at index `2 + i` below `2 + blocks` the data frame of block `i` is dispatched, and `i` fits 16
bits. -/
def Obligations.StepSendsTheBlock : Prop :=
  ∀ (s : State) (index : Word32), s.status = .sending → s.src.len = s.srcLen.toNat → s.srcLen.toNat ≤ 16777216 →
    2 ≤ index.toNat → index.toNat < 2 + s.blocks →
    let i := index.toNat - 2
    let n := if i + 1 < s.blocks then 256 else s.src.len - 256 * i
    let F := buildDataFrame Config.providers (s.src.bytes (256 * i) n) (BitVec.ofNat 16 i)
    (BitVec.ofNat 16 i).toNat = i ∧ exec (.step index) s =
      .next { s with
        frameIndex := index
        inFlight := true
        outputs := s.outputs ++ [.transmit F (index + 1)]
        playing := s.playing ++ [⟨F, index + 1⟩] }

/-- 42_sequencer.md R124: the end of the sequence, under STOP and under LOOP with no data block, at index `2 + blocks`, the
one that R126 says the end test always meets. A larger index faults under either policy
(93_implementation_defined.md U15), although R118 and R124 write `index ≥ 2 + blocks`: that is the model's reading, log
13. -/
def Obligations.StepEndsTheSequence : Prop :=
  ∀ (s : State) (index : Word32), s.status = .sending →
    (index.toNat = 2 + s.blocks → s.endPolicy = .stop ∨ s.blocks = 0 →
      let t := { s with frameIndex := index, status := .idle, outputs := s.outputs ++ [.done index] }
      exec (.step index) s = .next t ∧ (s.inFlight = false → t.inFlight = false) ∧ t.frameIndex.toNat = 2 + t.blocks) ∧
    (2 + s.blocks < index.toNat → exec (.step index) s = .fault .stepPastEnd)

/-- 42_sequencer.md R125: under LOOP with data blocks the pass is counted and block 0 is dispatched at index 2 in the same
event; no DONE, no control frame, the session goes on; with no data block LOOP ends the session as R124 does. At index
`2 + blocks`, the one that R126 says the end test always meets; a larger one is StepEndsTheSequence's (log 13). -/
def Obligations.StepLoopsToBlockZero : Prop :=
  ∀ (s : State) (index : Word32), s.status = .sending → s.src.len = s.srcLen.toNat → s.endPolicy = .loop →
    index.toNat = 2 + s.blocks →
    let n := if 1 < s.blocks then 256 else s.src.len
    let F := buildDataFrame Config.providers (s.src.bytes 0 n) 0
    (1 ≤ s.blocks → exec (.step index) s =
      .next { s with
        playCount := s.playCount + 1
        frameIndex := 2
        inFlight := true
        outputs := s.outputs ++ [.transmit F 3]
        playing := s.playing ++ [⟨F, 3⟩] }) ∧
    (s.blocks = 0 → exec (.step index) s =
      .next { s with frameIndex := index, status := .idle, outputs := s.outputs ++ [.done index] })

/-! ## Frames over all instructions -/

/-- 20_memory.md R38 and 42_sequencer.md R110: no instruction but an accepted START changes a byte that SRC reads, and an
accepted START makes every byte read as the presented buffer's. What waits on the channels, the presented buffer and the
configuration are changed by no instruction. -/
def Obligations.NoInstructionWritesTheSource : Prop :=
  ∀ (i : Instr) (s t : State), exec i s = .next t →
    ((∀ a, t.src.read a = s.src.read a) ∧ t.srcLen = s.srcLen ∨
      (∃ L, i = .start L ∧ s.status = .idle ∧ s.inFlight = false ∧ L.toNat ≤ 16777216 ∧ s.presented.len = L.toNat ∧
        t.srcLen = L ∧ ∀ a, t.src.read a = s.presented.read a)) ∧
    t.presented = s.presented ∧ t.endPolicy = s.endPolicy ∧ t.control = s.control ∧ t.completion = s.completion ∧
    t.loading = s.loading ∧ t.port = s.port ∧ t.schedule = s.schedule

/-- 10_state.md R21, R23, R24, R26, R27, R28, R30: each of the six registers is written only by the rules it names as its
writers, here by the rows that run those rules; SRC has the writer of `srcLen` (20_memory.md R38). That the output rows
TRANSMIT, DONE and ERROR, run by themselves, count as such rows is the model's choice (log 8). -/
def Obligations.RegistersHaveTheirWriters : Prop :=
  ∀ (i : Instr) (s t : State), exec i s = .next t →
    (t.status ≠ s.status → (∃ L, i = .start L) ∨ i = .stop ∨ (∃ n, i = .complete n) ∨ (∃ n, i = .done n) ∨
      ∃ n, i = .step n) ∧
    (t.frameIndex ≠ s.frameIndex → (∃ L, i = .start L) ∨ (∃ n, i = .complete n) ∨ (∃ n, i = .transmit n) ∨
      (∃ n, i = .done n) ∨ ∃ n, i = .step n) ∧
    (t.playCount ≠ s.playCount → (∃ L, i = .start L) ∨ (∃ n, i = .complete n) ∨ ∃ n, i = .step n) ∧
    (t.srcLen ≠ s.srcLen ∨ t.src ≠ s.src → ∃ L, i = .start L) ∧
    (t.inFlight ≠ s.inFlight → (∃ L, i = .start L) ∨ (∃ n, i = .complete n) ∨ (∃ n, i = .transmit n) ∨
      ∃ n, i = .step n) ∧
    (t.lastError ≠ s.lastError →
      (∃ L, i = .start L) ∨ (∃ n, i = .complete n) ∨ i = .loadFail ∨ ∃ n, i = .error n)

/-- 60_exceptions.md R131: an input event that raises an error moves no `frameIndex`, counts no pass, touches no buffer,
emits neither TRANSMIT nor DONE, and leaves the frames the driver already has. Of the flags, only COMPLETION_MISMATCH
writes any: it ends the session and clears `inFlight` (R130, R133, 42_sequencer.md R116). -/
def Obligations.ErrorsArePrecise : Prop :=
  ∀ (i : Instr) (s t : State) (code : BitVec 3),
    ((∃ L, i = .start L) ∨ i = .stop ∨ (∃ n, i = .complete n) ∨ i = .loadFail) →
    exec i s = .next t → t.outputs = s.outputs ++ [.error code] →
    t.lastError = code ∧ t.frameIndex = s.frameIndex ∧ t.playCount = s.playCount ∧ t.srcLen = s.srcLen ∧
    t.src = s.src ∧ t.playing = s.playing ∧ t.control = s.control ∧ t.completion = s.completion ∧
    (code ≠ 3 → t.status = s.status ∧ t.inFlight = s.inFlight) ∧
    (code = 3 → t.status = .idle ∧ t.inFlight = false)

/-- 30_encoding.md R66: whatever runs, every TRANSMIT newly emitted carries a frame of one of the two formats. -/
def Obligations.OnlyTheTwoFormatsAreSent : Prop :=
  ∀ (i : Instr) (s t : State), exec i s = .next t →
    ∀ (F : List Byte) (next : Word32), .transmit F next ∈ t.outputs → .transmit F next ∉ s.outputs →
      F.take 7 = [0x00, 0x00, 0x00, 0x00, 0xAA, 0x55, 0x42] ∧ F.getLast? = some 0xFF ∧
      (F.length = 37 ∧ F[7]? = some 0x81 ∨ F.length = 271 ∧ F[7]? = some 0x01)

/-- 41_hash_integration.md R104: the sequencer's transitions depend only on `status`, `inFlight`, `frameIndex`, `srcLen`
and the input event (with the fixed policy and the lengths of the buffers): no byte of a buffer, no provider result, no
error or pass count steers them. -/
def Obligations.TransitionsIgnoreContents : Prop :=
  ∀ (i : Instr) (s s' t : State),
    ((∃ L, i = .start L) ∨ i = .stop ∨ (∃ n, i = .complete n) ∨ i = .loadFail ∨ ∃ n, i = .step n) →
    s'.status = s.status → s'.inFlight = s.inFlight → s'.frameIndex = s.frameIndex → s'.srcLen = s.srcLen →
    s'.endPolicy = s.endPolicy → s'.src.len = s.src.len → s'.presented.len = s.presented.len →
    exec i s = .next t →
    ∃ t', exec i s' = .next t' ∧ t'.status = t.status ∧ t'.inFlight = t.inFlight ∧ t'.frameIndex = t.frameIndex ∧
      t'.srcLen = t.srcLen

/-- 20_memory.md R39: while Idle no event reads SRC: with any other buffer in its place each event does the same, and an
accepted START replaces it. -/
def Obligations.IdleCoreNeverReadsTheSource : Prop :=
  ∀ (s : State) (B : Memory), s.status = .idle →
    (∀ i : Instr, i = .stop ∨ (∃ n, i = .complete n) ∨ i = .loadFail ∨ (∃ n, i = .step n) →
      ∃ t, exec i s = .next t ∧ exec i { s with src := B } = .next { t with src := B }) ∧
    (∀ L : Word32, s.inFlight = false → s.presented.len = L.toNat → L.toNat ≤ 16777216 →
      exec (.start L) { s with src := B } = exec (.start L) s)

/-! ## Memory -/

/-- The canonical form is one form: two canonical byte spaces of one length that read the same are equal (20_memory.md
R37; log 14). -/
def Obligations.CanonicalMemoriesAreEqual : Prop :=
  ∀ m m' : Memory, m.wf = true → m'.wf = true → m.len = m'.len → (∀ a, m.read a = m'.read a) → m = m'

/-- The bytes presented are the bytes read (20_memory.md R40), at every offset. -/
def Obligations.PresentedBytesAreRead : Prop :=
  ∀ bs : List Byte, (Memory.ofBytes bs).bytes 0 bs.length = bs ∧ ∀ a, (Memory.ofBytes bs).read a = bs[a]?

/-! ## The step, the channels, reset -/

/-- A step runs the decoded instruction: what is taken is removed from its channel, and `exec` runs on the rest. -/
def Obligations.StepRunsTheDecodedInstruction : Prop :=
  ∀ (s : State) (f : Fetched) (i : Instr), ¬(s.status = .sending ∧ s.inFlight = false) →
    fetch s = some f → decode f.item = .ok i → f.source.carries i = true → step s = exec i f.rest

/-- 42_sequencer.md R105: what the core takes next. With one channel's head enabled it takes that head; with both, the one
chosen; a held head blocks its own channel only; with none it takes nothing.
The form of the free choice is the model's (log 3). -/
def Obligations.TheCoreTakesAnEnabledHead : Prop :=
  ∀ s : State, s.port = none →
    (∀ c cs, s.control = c :: cs → held s c = false → s.completion = [] →
      fetch s = some ⟨.control, .event c.word, { s with control := cs, presented := c.side }⟩) ∧
    (∀ w ws, s.completion = w :: ws → (s.control = [] ∨ ∃ c cs, s.control = c :: cs ∧ held s c = true) →
      fetch s = some ⟨.completion, .event w, { s with completion := ws }⟩) ∧
    (∀ c cs w ws, s.control = c :: cs → held s c = false → s.completion = w :: ws →
      fetch s = some (match chosenChannel s with
        | .control => ⟨.control, .event c.word,
            { s with control := cs, presented := c.side, schedule := s.schedule.tail, draws := s.draws + 1 }⟩
        | .completion => ⟨.completion, .event w,
            { s with completion := ws, schedule := s.schedule.tail, draws := s.draws + 1 }⟩)) ∧
    (s.completion = [] → (s.control = [] ∨ ∃ c cs, s.control = c :: cs ∧ held s c = true) → fetch s = none)

/-- 70_reset_and_hazards.md R153: without the COMPLETE of the frame in flight the core stays in the state it was in, for
ever: Sending with nothing waiting, or Idle with nothing waiting or a held START. That a wait is a step to the same state
is the model's choice (log 4). -/
def Obligations.AStalledDriverStallsTheCore : Prop :=
  ∀ s : State, s.inFlight = true → s.port = none → s.completion = [] →
    (s.control = [] ∨ (s.status = .idle ∧ ∃ c cs L, s.control = c :: cs ∧ decode (.event c.word) = .ok (.start L) ∧
      c.side.len = L.toNat)) →
    ∀ k, core.run k s = .next s

/-- 10_state.md R35 and 70_reset_and_hazards.md R146: after reset every register has its reset value and no buffer is
owned; reset emits nothing and leaves the channels and the driver's playback alone. -/
def Obligations.ResetValues : Prop :=
  (∃ p, core.reset = State.resetUnder p) ∧
  (∀ p : EndPolicy, resetCore (State.resetUnder p) = State.resetUnder p ∧ (State.resetUnder p).outputs = []) ∧
  ∀ s : State, let t := resetCore s
    t.status.bit = 0 ∧ t.frameIndex = 0 ∧ t.playCount = 0 ∧ t.srcLen = 0 ∧ t.inFlightBit = 0 ∧ t.lastError = 0 ∧
    t.src.len = 0 ∧ (∀ a, t.src.read a = none) ∧ t.outputs = s.outputs ∧ t.playing = s.playing ∧
    t.control = s.control ∧ t.completion = s.completion ∧ t.loading = s.loading

/-- 70_reset_and_hazards.md R148: a reset while a frame plays leaves the frame with the driver and every event waiting,
emits nothing, and the frame's later COMPLETE raises SPURIOUS_COMPLETION and leaves every other register, and SRC, at
its reset value. -/
def Obligations.ResetDuringPlayback : Prop :=
  ∀ (s : State) (p : Playback), s.playing = [p] → s.completion = [] → s.control = [] → s.port = none →
    (resetCore s).playing = s.playing ∧ (resetCore s).outputs = s.outputs ∧
    ∃ t, driverRound (resetCore s) = .next t ∧ t.lastError = 4 ∧ t.outputs = s.outputs ++ [.error 4] ∧
      t.status = .idle ∧ t.inFlight = false ∧ t.frameIndex = 0 ∧ t.playCount = 0 ∧ t.srcLen = 0 ∧
      t.src = Memory.empty

/-! ## Invariants and whole runs -/

/-- The invariant holds at reset, under either policy. -/
def Obligations.InvariantHoldsAtReset : Prop := ∀ p : EndPolicy, Inv (State.resetUnder p)

/-- Every step keeps the invariant (10_state.md R25 to R27, 42_sequencer.md R108, R126). -/
def Obligations.EveryStepKeepsTheInvariant : Prop := ∀ s t : State, Inv s → step s = .next t → Inv t

/-- The states on which the model faults are unreachable (60_exceptions.md R137): in a state of the invariant no step
faults. -/
def Obligations.NoStepFaultsUnderTheInvariant : Prop := ∀ (s : State) (x : Fault), Inv s → step s ≠ .fault x

/-- With an honest ChannelDriver the handshake holds along every run: at most one frame is in flight (20_memory.md R52),
a step emits at most one event, and never COMPLETION_MISMATCH or SPURIOUS_COMPLETION (70_reset_and_hazards.md R151). -/
def Obligations.AnHonestDriverKeepsTheHandshake : Prop :=
  (∀ s t : State, Inv s → Handshake s → step s = .next t →
    Handshake t ∧ (t.outputs = s.outputs ∨ ∃ o, t.outputs = s.outputs ++ [o] ∧ o ≠ .error 3 ∧ o ≠ .error 4)) ∧
  (∀ s t : State, Inv s → Handshake s → driverFinish s = some t → Inv t ∧ Handshake t)

/-- 42_sequencer.md R127, the chunking law: under STOP and a driver that completes every frame, a session emits exactly
`2 + blocks` TRANSMIT events, two control frames and each block in order, then one DONE, and is over. -/
def Obligations.SessionSendsEveryBlockInOrder : Prop :=
  ∀ (s : State) (B : Memory), s.status = .idle → s.inFlight = false → s.endPolicy = .stop → s.port = none →
    s.playing = [] → s.completion = [] → B.len ≤ 16777216 →
    s.control = [⟨eventWord 0x01 (BitVec.ofNat 32 B.len), B⟩] →
    ∃ t u, step s = .next t ∧ driverRounds (2 + blocksOf B.len) t = .next u ∧
      u.outputs = s.outputs ++ sessionOutputs B ∧ (sessionOutputs B).length = 3 + blocksOf B.len ∧
      RunOver u ∧ u.playing = [] ∧ u.frameIndex.toNat = 2 + blocksOf B.len ∧ u.playCount = 0 ∧ u.src = B

/-- 42_sequencer.md R125, 20_memory.md R51: under LOOP one pass from block 0 sends the other blocks in order, then block 0
again at index 2, and counts the pass; the session goes on. -/
def Obligations.LoopPassReturnsToBlockZero : Prop :=
  ∀ (s : State) (F : List Byte), s.status = .sending → s.inFlight = true → s.endPolicy = .loop → s.port = none →
    s.frameIndex = 2 → s.playing = [⟨F, 3⟩] → s.completion = [] → s.control = [] → s.src.len = s.srcLen.toNat →
    s.srcLen.toNat ≤ 16777216 → 1 ≤ s.blocks →
    ∃ u, driverRounds s.blocks s = .next u ∧
      u.outputs = s.outputs ++ ((List.range (s.blocks - 1)).map fun i => transmitBlock s.src (i + 1)) ++
        [transmitBlock s.src 0] ∧
      u.playCount = s.playCount + 1 ∧ u.frameIndex = 2 ∧ u.status = .sending ∧ u.inFlight = true ∧
      u.playing = [⟨dataFrameOf s.src 0, 3⟩] ∧ u.src = s.src ∧ u.srcLen = s.srcLen

/-- 42_sequencer.md R128: after a STOP the COMPLETE of the frame in flight runs one cancelled step; nothing is emitted any
more, and the run is over. -/
def Obligations.StopCancelsTheSession : Prop :=
  ∀ (s : State) (side : Memory) (F : List Byte) (m : Word32), s.status = .sending → s.inFlight = true →
    s.port = none → s.control = [⟨eventWord 0x02 0, side⟩] → s.completion = [] → s.playing = [⟨F, m⟩] →
    m.toNat = s.frameIndex.toNat + 1 →
    ∃ t, step s = .next t ∧ t.outputs = s.outputs ∧
      ∀ k, 1 ≤ k → ∃ u, driverRounds k t = .next u ∧ u.outputs = s.outputs ∧ RunOver u ∧ u.playing = [] ∧
        u.frameIndex = s.frameIndex
end

