-- ==== Sys2Proof/Laws/Bytes.lean ====
section
/-! SUPPORT. Byte sequences and event words: lengths, and each of the two readings of a number. -/

namespace Sys2Proof.Machine

@[simp] theorem le_length (n v : Nat) : (le n v).length = n := by
  induction n generalizing v with
  | zero => rfl
  | succ n ih => simp [le, ih]

@[simp] theorem bigEndian_length (n v : Nat) : (bigEndian n v).length = n := by
  induction n with
  | zero => rfl
  | succ n ih => simp [bigEndian, ih]

@[simp] theorem rep_length (n : Nat) (v : Byte) : (rep n v).length = n := List.length_replicate

/-- `from_le` is the inverse of `le_N` (00_scope.md R14). -/
theorem fromLe_le (n v : Nat) : fromLe (le n v) = v % 256 ^ n := by
  induction n generalizing v with
  | zero => simp [le, fromLe, Nat.mod_one]
  | succ n ih =>
    simp only [le, fromLe, ih, BitVec.toNat_ofNat]
    rw [show (256 : Nat) ^ (n + 1) = 256 * 256 ^ n by rw [Nat.pow_succ, Nat.mul_comm], Nat.mod_mul]

theorem fromLe_lt (S : List Byte) : fromLe S < 256 ^ S.length := by
  induction S with
  | nil => simp [fromLe]
  | cons b bs ih =>
    have := b.isLt
    simp only [fromLe, List.length_cons, pow_succ]
    omega

/-- `le_N` is the inverse of `from_le` (00_scope.md R14). -/
theorem le_fromLe (S : List Byte) : le S.length (fromLe S) = S := by
  induction S with
  | nil => rfl
  | cons b bs ih =>
    have hb := b.isLt
    simp only [List.length_cons, le, fromLe]
    have h1 : (b.toNat + 256 * fromLe bs) / 256 = fromLe bs := by omega
    rw [h1, ih]
    congr 1
    apply BitVec.eq_of_toNat_eq
    simp only [BitVec.toNat_ofNat]
    omega

/-- A field written with `le_4` and read back with `from_le`. -/
@[simp] theorem ofNat_fromLe_le4 (v : Word32) : BitVec.ofNat 32 (fromLe (le 4 v.toNat)) = v := by
  apply BitVec.eq_of_toNat_eq
  have := v.isLt
  simp only [fromLe_le, BitVec.toNat_ofNat]
  omega

/-- A field written with `le_2` and read back with `from_le`. -/
@[simp] theorem ofNat_fromLe_le2 (v : BitVec 16) : BitVec.ofNat 16 (fromLe (le 2 v.toNat)) = v := by
  apply BitVec.eq_of_toNat_eq
  have := v.isLt
  simp only [fromLe_le, BitVec.toNat_ofNat]
  omega

theorem slice_length (S : List Byte) (a b : Nat) : (slice S a b).length = min (b - a) (S.length - a) := by
  simp [slice]

/-- A slice that lies in the second part. -/
theorem slice_append_right (S T : List Byte) (a b : Nat) (h : S.length ≤ a) :
    slice (S ++ T) a b = slice T (a - S.length) (b - S.length) := by
  unfold slice
  rw [List.drop_append, List.drop_eq_nil_of_le h, List.nil_append]
  congr 1
  omega

/-- A slice that is exactly the first part. -/
theorem slice_append_left (S T : List Byte) (b : Nat) (h : b = S.length) : slice (S ++ T) 0 b = S := by
  subst h
  simp [slice]

@[simp] theorem eventCode_eventWord (code : Byte) (arg : Word32) : eventCode (eventWord code arg) = code := by
  apply BitVec.eq_of_getLsbD_eq
  intro i hi
  simp only [eventCode, eventWord, BitVec.getLsbD_extractLsb', BitVec.getLsbD_append]
  simp [hi]

@[simp] theorem eventArg_eventWord (code : Byte) (arg : Word32) : eventArg (eventWord code arg) = arg := by
  apply BitVec.eq_of_getLsbD_eq
  intro i hi
  simp only [eventArg, eventWord, BitVec.getLsbD_extractLsb', BitVec.getLsbD_append]
  simp [hi]

/-- An event word is its code and its argument. -/
theorem eventWord_eta (w : EventWord) : eventWord (eventCode w) (eventArg w) = w := by
  apply BitVec.eq_of_getLsbD_eq
  intro i hi
  simp only [eventCode, eventArg, eventWord, BitVec.getLsbD_extractLsb', BitVec.getLsbD_append]
  by_cases h : i < 32
  · simp [h]
  · have h2 : i - 32 < 8 := by omega
    have h3 : 32 + (i - 32) = i := by omega
    simp [h, h2, h3]

end Sys2Proof.Machine
end

