-- ==== Sys2Proof/Laws/Layout.lean ====
section
/-! SUPPORT. The layouts' lengths, and the striping lane by lane. -/

namespace Sys2Proof.Machine

@[simp] theorem stripeFrom_length (n p : Nat) (F : List Byte) : (stripeFrom n p F).length = F.length := by
  induction F generalizing p with
  | nil => rfl
  | cons b bs ih => simp [stripeFrom, ih]

@[simp] theorem stripe_length (F : List Byte) : (stripe F).length = F.length := stripeFrom_length _ _ F

theorem stripeFrom_getElem? (n p : Nat) (F : List Byte) (q : Nat) :
    (stripeFrom n p F)[q]? = (F[q]?).map (stripeByte n (p + q)) := by
  induction F generalizing p q with
  | nil => simp [stripeFrom]
  | cons b bs ih =>
    cases q with
    | zero => simp [stripeFrom]
    | succ q =>
      simp only [stripeFrom, List.getElem?_cons_succ, ih]
      congr 2
      omega

/-- One lane of `stripe` reads its own byte only. -/
theorem stripe_getElem? (F : List Byte) (q : Nat) : (stripe F)[q]? = (F[q]?).map (stripeByte F.length q) := by
  simp [stripe, stripeFrom_getElem?]

/-- A lane outside the striped range is unchanged. -/
theorem stripeByte_outside (n p : Nat) (b : Byte) (h : p < 8 ∨ n ≤ p + 5) : stripeByte n p b = b := by
  unfold stripeByte
  rw [if_neg (by omega)]

@[simp] theorem preamble_length : preamble.length = 7 := rfl

theorem controlBytes_length (f : ControlFields) : (controlBytes f).length = 21 + f.contentDigest.length := by
  simp [controlBytes]
  omega

theorem assembledBytes_length (f : DataFields) : (assembledBytes f).length = 15 + f.payload.length := by
  simp [assembledBytes, blockHashInput]
  omega

@[simp] theorem dataBytes_length (f : DataFields) : (dataBytes f).length = 15 + f.payload.length := by
  simp [dataBytes, assembledBytes_length]

/-- The type byte of a ControlFrame stands at offset 7 (30_encoding.md R59). -/
theorem controlBytes_type (f : ControlFields) : (controlBytes f)[7]? = some ctrlVersion := by
  simp [controlBytes, preamble]

/-- The type byte of a DataFrame stands at offset 7, before striping and after (30_encoding.md R61, R64). -/
theorem assembledBytes_type (f : DataFields) : (assembledBytes f)[7]? = some dataVersion := by
  simp [assembledBytes, preamble, blockHashInput]

theorem dataBytes_type (f : DataFields) : (dataBytes f)[7]? = some dataVersion := by
  rw [dataBytes, stripe_getElem?, assembledBytes_type, Option.map_some, stripeByte_outside _ _ _ (by omega)]

end Sys2Proof.Machine
end

