-- ==== Sys2Proof/Laws/Memory.lean ====
section
/-! SUPPORT. Every memory operation keeps the canonical form, and the laws of one byte's read. -/

namespace Sys2Proof.Machine

theorem cellsWf_cons {len lo a : Nat} {b : Byte} {cs : List Host.Cell} :
    cellsWf len lo ((a, b) :: cs) = true ↔ lo ≤ a ∧ a < len ∧ b ≠ unlistedByte ∧ cellsWf len (a + 1) cs = true := by
  simp [cellsWf, and_assoc]

theorem cellsWf_mono {len lo lo' : Nat} {cs : List Host.Cell} (h : cellsWf len lo cs = true) (hl : lo' ≤ lo) :
    cellsWf len lo' cs = true := by
  cases cs with
  | nil => rfl
  | cons c cs =>
    obtain ⟨a, b⟩ := c
    rw [cellsWf_cons] at h ⊢
    exact ⟨by omega, h.2⟩

/-- Writing a cell at or above `lo` and below `len` keeps the canonical form. -/
theorem setCell_wf {len x : Nat} (b : Byte) (hx : x < len) :
    ∀ {lo : Nat} {cs : List Host.Cell}, lo ≤ x → cellsWf len lo cs = true → cellsWf len lo (setCell x b cs) = true := by
  intro lo cs
  induction cs generalizing lo with
  | nil =>
    intro hl _
    unfold setCell
    split
    · rfl
    · next hb => exact cellsWf_cons.2 ⟨hl, hx, hb, rfl⟩
  | cons c cs ih =>
    obtain ⟨a, d⟩ := c
    intro hl h
    have h' := cellsWf_cons.1 h
    unfold setCell
    split
    · split
      · exact h
      · next hlt hb => exact cellsWf_cons.2 ⟨hl, hx, hb, cellsWf_cons.2 ⟨by omega, h'.2⟩⟩
    · split
      · split
        · exact cellsWf_mono h'.2.2.2 (by omega)
        · next hne heq hb => exact cellsWf_cons.2 ⟨hl, hx, hb, heq ▸ h'.2.2.2⟩
      · exact cellsWf_cons.2 ⟨h'.1, h'.2.1, h'.2.2.1, ih (by omega) h'.2.2.2⟩

/-- The Host's write keeps the canonical form. -/
theorem Memory.write_wf (m : Memory) (a : Nat) (b : Byte) (h : m.wf = true) : (m.write a b).wf = true := by
  unfold Memory.write
  split
  · next ha => exact setCell_wf b ha (Nat.zero_le _) h
  · exact h

@[simp] theorem Memory.write_len (m : Memory) (a : Nat) (b : Byte) : (m.write a b).len = m.len := by
  unfold Memory.write
  split <;> rfl

theorem cellsFrom_wf (bs : List Byte) : ∀ a len : Nat, a + bs.length ≤ len → cellsWf len a (cellsFrom a bs) = true := by
  induction bs with
  | nil => intro a len _; rfl
  | cons b bs ih =>
    intro a len h
    simp only [List.length_cons] at h
    unfold cellsFrom
    split
    · exact cellsWf_mono (ih (a + 1) len (by omega)) (by omega)
    · next hb => exact cellsWf_cons.2 ⟨le_refl a, by omega, hb, ih (a + 1) len (by omega)⟩

/-- The byte space of a byte sequence is in canonical form. -/
theorem Memory.ofBytes_wf (bs : List Byte) : (Memory.ofBytes bs).wf = true :=
  cellsFrom_wf bs 0 bs.length (by omega)

@[simp] theorem Memory.ofBytes_len (bs : List Byte) : (Memory.ofBytes bs).len = bs.length := rfl

@[simp] theorem Memory.empty_len : Memory.empty.len = 0 := rfl

/-- The empty byte space is in canonical form. -/
@[simp] theorem Memory.empty_wf : Memory.empty.wf = true := rfl

/-- A byte space with no listed cell, as `withFetchWord` presents it, is in canonical form. -/
theorem Memory.blank_wf (n : Nat) : (Memory.mk n []).wf = true := rfl

/-- Every buffer of the machine after reset is in canonical form. -/
theorem reset_memory_wf (p : EndPolicy) :
    (State.resetUnder p).src.wf = true ∧ (State.resetUnder p).presented.wf = true := ⟨rfl, rfl⟩

/-- Below every listed cell an offset reads as unlisted. -/
theorem lookupCell_below {len x : Nat} :
    ∀ {lo : Nat} {cs : List Host.Cell}, cellsWf len lo cs = true → x < lo → lookupCell cs x = unlistedByte := by
  intro lo cs
  induction cs generalizing lo with
  | nil => intro _ _; rfl
  | cons c cs ih =>
    obtain ⟨a, b⟩ := c
    intro h hx
    have h' := cellsWf_cons.1 h
    simp only [lookupCell]
    rw [if_neg (by omega)]
    exact ih h'.2.2.2 (by omega)

theorem lookupCell_setCell {len x : Nat} (b : Byte) (y : Nat) :
    ∀ {lo : Nat} {cs : List Host.Cell}, cellsWf len lo cs = true →
      lookupCell (setCell x b cs) y = if y = x then b else lookupCell cs y := by
  intro lo cs
  induction cs generalizing lo with
  | nil =>
    intro _
    unfold setCell
    split
    · next hb => simp [lookupCell, hb]
    · simp [lookupCell]
  | cons c cs ih =>
    obtain ⟨a, d⟩ := c
    intro h
    have h' := cellsWf_cons.1 h
    unfold setCell
    split
    · next hlt =>
      split
      · next hb =>
        split
        · next hy => subst hy; rw [lookupCell_below (cellsWf_cons.2 ⟨le_refl a, h'.2⟩) hlt, hb]
        · rfl
      · simp [lookupCell]
    · next hnlt =>
      split
      · next heq =>
        subst heq
        split
        · next hb =>
          split
          · next hy => subst hy; rw [lookupCell_below h'.2.2.2 (by omega), hb]
          · next hy => simp [lookupCell, hy]
        · simp only [lookupCell]
          split <;> rfl
      · next hne =>
        simp only [lookupCell]
        split
        · next hy => rw [if_neg (by omega)]
        · exact ih h'.2.2.2

/-- A write is read back, and leaves every other byte alone. -/
theorem Memory.read_write (m : Memory) (h : m.wf = true) (a : Nat) (b : Byte) (x : Nat) :
    (m.write a b).read x = if x = a ∧ a < m.len then some b else m.read x := by
  unfold Memory.write
  split
  · next ha =>
    simp only [Memory.read, Memory.byteAt, lookupCell_setCell b x h]
    by_cases hx : x = a
    · subst hx; simp [ha]
    · simp [hx]
  · next ha => simp [ha]

@[simp] theorem Memory.bytes_length (m : Memory) (a n : Nat) : (m.bytes a n).length = n := by
  induction n generalizing a with
  | zero => rfl
  | succ n ih => simp [Memory.bytes, ih]

end Sys2Proof.Machine
end

