-- ==== Sys2Proof/Laws/State.lean ====
section
/-! SUPPORT. One lemma per field per named update of State, each true by `rfl`, so that no proof unfolds an update. -/

namespace Sys2Proof.Machine

/-! `setIdle` -/

@[simp] theorem setIdle_status (s : State) : (setIdle s).status = .idle := rfl
@[simp] theorem setIdle_frameIndex (s : State) : (setIdle s).frameIndex = s.frameIndex := rfl
@[simp] theorem setIdle_playCount (s : State) : (setIdle s).playCount = s.playCount := rfl
@[simp] theorem setIdle_srcLen (s : State) : (setIdle s).srcLen = s.srcLen := rfl
@[simp] theorem setIdle_inFlight (s : State) : (setIdle s).inFlight = s.inFlight := rfl
@[simp] theorem setIdle_lastError (s : State) : (setIdle s).lastError = s.lastError := rfl
@[simp] theorem setIdle_src (s : State) : (setIdle s).src = s.src := rfl
@[simp] theorem setIdle_endPolicy (s : State) : (setIdle s).endPolicy = s.endPolicy := rfl
@[simp] theorem setIdle_control (s : State) : (setIdle s).control = s.control := rfl
@[simp] theorem setIdle_completion (s : State) : (setIdle s).completion = s.completion := rfl
@[simp] theorem setIdle_playing (s : State) : (setIdle s).playing = s.playing := rfl
@[simp] theorem setIdle_loading (s : State) : (setIdle s).loading = s.loading := rfl
@[simp] theorem setIdle_outputs (s : State) : (setIdle s).outputs = s.outputs := rfl
@[simp] theorem setIdle_presented (s : State) : (setIdle s).presented = s.presented := rfl
@[simp] theorem setIdle_work (s : State) : (setIdle s).work = s.work := rfl
@[simp] theorem setIdle_port (s : State) : (setIdle s).port = s.port := rfl
@[simp] theorem setIdle_schedule (s : State) : (setIdle s).schedule = s.schedule := rfl
@[simp] theorem setIdle_draws (s : State) : (setIdle s).draws = s.draws := rfl
@[simp] theorem setIdle_blocks (s : State) : (setIdle s).blocks = s.blocks := rfl

/-! `setSending` -/

@[simp] theorem setSending_status (s : State) : (setSending s).status = .sending := rfl
@[simp] theorem setSending_frameIndex (s : State) : (setSending s).frameIndex = s.frameIndex := rfl
@[simp] theorem setSending_playCount (s : State) : (setSending s).playCount = s.playCount := rfl
@[simp] theorem setSending_srcLen (s : State) : (setSending s).srcLen = s.srcLen := rfl
@[simp] theorem setSending_inFlight (s : State) : (setSending s).inFlight = s.inFlight := rfl
@[simp] theorem setSending_lastError (s : State) : (setSending s).lastError = s.lastError := rfl
@[simp] theorem setSending_src (s : State) : (setSending s).src = s.src := rfl
@[simp] theorem setSending_endPolicy (s : State) : (setSending s).endPolicy = s.endPolicy := rfl
@[simp] theorem setSending_control (s : State) : (setSending s).control = s.control := rfl
@[simp] theorem setSending_completion (s : State) : (setSending s).completion = s.completion := rfl
@[simp] theorem setSending_playing (s : State) : (setSending s).playing = s.playing := rfl
@[simp] theorem setSending_loading (s : State) : (setSending s).loading = s.loading := rfl
@[simp] theorem setSending_outputs (s : State) : (setSending s).outputs = s.outputs := rfl
@[simp] theorem setSending_presented (s : State) : (setSending s).presented = s.presented := rfl
@[simp] theorem setSending_work (s : State) : (setSending s).work = s.work := rfl
@[simp] theorem setSending_port (s : State) : (setSending s).port = s.port := rfl
@[simp] theorem setSending_schedule (s : State) : (setSending s).schedule = s.schedule := rfl
@[simp] theorem setSending_draws (s : State) : (setSending s).draws = s.draws := rfl
@[simp] theorem setSending_blocks (s : State) : (setSending s).blocks = s.blocks := rfl

/-! `clearInFlight` -/

@[simp] theorem clearInFlight_status (s : State) : (clearInFlight s).status = s.status := rfl
@[simp] theorem clearInFlight_frameIndex (s : State) : (clearInFlight s).frameIndex = s.frameIndex := rfl
@[simp] theorem clearInFlight_playCount (s : State) : (clearInFlight s).playCount = s.playCount := rfl
@[simp] theorem clearInFlight_srcLen (s : State) : (clearInFlight s).srcLen = s.srcLen := rfl
@[simp] theorem clearInFlight_inFlight (s : State) : (clearInFlight s).inFlight = false := rfl
@[simp] theorem clearInFlight_lastError (s : State) : (clearInFlight s).lastError = s.lastError := rfl
@[simp] theorem clearInFlight_src (s : State) : (clearInFlight s).src = s.src := rfl
@[simp] theorem clearInFlight_endPolicy (s : State) : (clearInFlight s).endPolicy = s.endPolicy := rfl
@[simp] theorem clearInFlight_control (s : State) : (clearInFlight s).control = s.control := rfl
@[simp] theorem clearInFlight_completion (s : State) : (clearInFlight s).completion = s.completion := rfl
@[simp] theorem clearInFlight_playing (s : State) : (clearInFlight s).playing = s.playing := rfl
@[simp] theorem clearInFlight_loading (s : State) : (clearInFlight s).loading = s.loading := rfl
@[simp] theorem clearInFlight_outputs (s : State) : (clearInFlight s).outputs = s.outputs := rfl
@[simp] theorem clearInFlight_presented (s : State) : (clearInFlight s).presented = s.presented := rfl
@[simp] theorem clearInFlight_work (s : State) : (clearInFlight s).work = s.work := rfl
@[simp] theorem clearInFlight_port (s : State) : (clearInFlight s).port = s.port := rfl
@[simp] theorem clearInFlight_schedule (s : State) : (clearInFlight s).schedule = s.schedule := rfl
@[simp] theorem clearInFlight_draws (s : State) : (clearInFlight s).draws = s.draws := rfl
@[simp] theorem clearInFlight_blocks (s : State) : (clearInFlight s).blocks = s.blocks := rfl

/-! `raise` -/

@[simp] theorem raise_status (e : ErrorCode) (s : State) : (raise e s).status = s.status := rfl
@[simp] theorem raise_frameIndex (e : ErrorCode) (s : State) : (raise e s).frameIndex = s.frameIndex := rfl
@[simp] theorem raise_playCount (e : ErrorCode) (s : State) : (raise e s).playCount = s.playCount := rfl
@[simp] theorem raise_srcLen (e : ErrorCode) (s : State) : (raise e s).srcLen = s.srcLen := rfl
@[simp] theorem raise_inFlight (e : ErrorCode) (s : State) : (raise e s).inFlight = s.inFlight := rfl
@[simp] theorem raise_lastError (e : ErrorCode) (s : State) : (raise e s).lastError = e.bits := rfl
@[simp] theorem raise_src (e : ErrorCode) (s : State) : (raise e s).src = s.src := rfl
@[simp] theorem raise_endPolicy (e : ErrorCode) (s : State) : (raise e s).endPolicy = s.endPolicy := rfl
@[simp] theorem raise_control (e : ErrorCode) (s : State) : (raise e s).control = s.control := rfl
@[simp] theorem raise_completion (e : ErrorCode) (s : State) : (raise e s).completion = s.completion := rfl
@[simp] theorem raise_playing (e : ErrorCode) (s : State) : (raise e s).playing = s.playing := rfl
@[simp] theorem raise_loading (e : ErrorCode) (s : State) : (raise e s).loading = s.loading := rfl
@[simp] theorem raise_outputs (e : ErrorCode) (s : State) : (raise e s).outputs = s.outputs ++ [.error e.bits] := rfl
@[simp] theorem raise_presented (e : ErrorCode) (s : State) : (raise e s).presented = s.presented := rfl
@[simp] theorem raise_work (e : ErrorCode) (s : State) : (raise e s).work = s.work := rfl
@[simp] theorem raise_port (e : ErrorCode) (s : State) : (raise e s).port = s.port := rfl
@[simp] theorem raise_schedule (e : ErrorCode) (s : State) : (raise e s).schedule = s.schedule := rfl
@[simp] theorem raise_draws (e : ErrorCode) (s : State) : (raise e s).draws = s.draws := rfl
@[simp] theorem raise_blocks (e : ErrorCode) (s : State) : (raise e s).blocks = s.blocks := rfl

/-! `dispatchAs` -/

@[simp] theorem dispatchAs_status (index next : Word32) (F : List Byte) (s : State) : (dispatchAs index next F s).status = s.status := rfl
@[simp] theorem dispatchAs_frameIndex (index next : Word32) (F : List Byte) (s : State) : (dispatchAs index next F s).frameIndex = index := rfl
@[simp] theorem dispatchAs_playCount (index next : Word32) (F : List Byte) (s : State) : (dispatchAs index next F s).playCount = s.playCount := rfl
@[simp] theorem dispatchAs_srcLen (index next : Word32) (F : List Byte) (s : State) : (dispatchAs index next F s).srcLen = s.srcLen := rfl
@[simp] theorem dispatchAs_inFlight (index next : Word32) (F : List Byte) (s : State) : (dispatchAs index next F s).inFlight = true := rfl
@[simp] theorem dispatchAs_lastError (index next : Word32) (F : List Byte) (s : State) : (dispatchAs index next F s).lastError = s.lastError := rfl
@[simp] theorem dispatchAs_src (index next : Word32) (F : List Byte) (s : State) : (dispatchAs index next F s).src = s.src := rfl
@[simp] theorem dispatchAs_endPolicy (index next : Word32) (F : List Byte) (s : State) : (dispatchAs index next F s).endPolicy = s.endPolicy := rfl
@[simp] theorem dispatchAs_control (index next : Word32) (F : List Byte) (s : State) : (dispatchAs index next F s).control = s.control := rfl
@[simp] theorem dispatchAs_completion (index next : Word32) (F : List Byte) (s : State) : (dispatchAs index next F s).completion = s.completion := rfl
@[simp] theorem dispatchAs_playing (index next : Word32) (F : List Byte) (s : State) : (dispatchAs index next F s).playing = s.playing ++ [⟨F, next⟩] := rfl
@[simp] theorem dispatchAs_loading (index next : Word32) (F : List Byte) (s : State) : (dispatchAs index next F s).loading = s.loading := rfl
@[simp] theorem dispatchAs_outputs (index next : Word32) (F : List Byte) (s : State) : (dispatchAs index next F s).outputs = s.outputs ++ [.transmit F next] := rfl
@[simp] theorem dispatchAs_presented (index next : Word32) (F : List Byte) (s : State) : (dispatchAs index next F s).presented = s.presented := rfl
@[simp] theorem dispatchAs_work (index next : Word32) (F : List Byte) (s : State) : (dispatchAs index next F s).work = s.work := rfl
@[simp] theorem dispatchAs_port (index next : Word32) (F : List Byte) (s : State) : (dispatchAs index next F s).port = s.port := rfl
@[simp] theorem dispatchAs_schedule (index next : Word32) (F : List Byte) (s : State) : (dispatchAs index next F s).schedule = s.schedule := rfl
@[simp] theorem dispatchAs_draws (index next : Word32) (F : List Byte) (s : State) : (dispatchAs index next F s).draws = s.draws := rfl
@[simp] theorem dispatchAs_blocks (index next : Word32) (F : List Byte) (s : State) : (dispatchAs index next F s).blocks = s.blocks := rfl

/-! `dispatch` -/

@[simp] theorem dispatch_status (index : Nat) (F : List Byte) (s : State) : (dispatch index F s).status = s.status := rfl
@[simp] theorem dispatch_frameIndex (index : Nat) (F : List Byte) (s : State) : (dispatch index F s).frameIndex = BitVec.ofNat 32 index := rfl
@[simp] theorem dispatch_playCount (index : Nat) (F : List Byte) (s : State) : (dispatch index F s).playCount = s.playCount := rfl
@[simp] theorem dispatch_srcLen (index : Nat) (F : List Byte) (s : State) : (dispatch index F s).srcLen = s.srcLen := rfl
@[simp] theorem dispatch_inFlight (index : Nat) (F : List Byte) (s : State) : (dispatch index F s).inFlight = true := rfl
@[simp] theorem dispatch_lastError (index : Nat) (F : List Byte) (s : State) : (dispatch index F s).lastError = s.lastError := rfl
@[simp] theorem dispatch_src (index : Nat) (F : List Byte) (s : State) : (dispatch index F s).src = s.src := rfl
@[simp] theorem dispatch_endPolicy (index : Nat) (F : List Byte) (s : State) : (dispatch index F s).endPolicy = s.endPolicy := rfl
@[simp] theorem dispatch_control (index : Nat) (F : List Byte) (s : State) : (dispatch index F s).control = s.control := rfl
@[simp] theorem dispatch_completion (index : Nat) (F : List Byte) (s : State) : (dispatch index F s).completion = s.completion := rfl
@[simp] theorem dispatch_playing (index : Nat) (F : List Byte) (s : State) : (dispatch index F s).playing = s.playing ++ [⟨F, BitVec.ofNat 32 (index + 1)⟩] := rfl
@[simp] theorem dispatch_loading (index : Nat) (F : List Byte) (s : State) : (dispatch index F s).loading = s.loading := rfl
@[simp] theorem dispatch_outputs (index : Nat) (F : List Byte) (s : State) : (dispatch index F s).outputs = s.outputs ++ [.transmit F (BitVec.ofNat 32 (index + 1))] := rfl
@[simp] theorem dispatch_presented (index : Nat) (F : List Byte) (s : State) : (dispatch index F s).presented = s.presented := rfl
@[simp] theorem dispatch_work (index : Nat) (F : List Byte) (s : State) : (dispatch index F s).work = s.work := rfl
@[simp] theorem dispatch_port (index : Nat) (F : List Byte) (s : State) : (dispatch index F s).port = s.port := rfl
@[simp] theorem dispatch_schedule (index : Nat) (F : List Byte) (s : State) : (dispatch index F s).schedule = s.schedule := rfl
@[simp] theorem dispatch_draws (index : Nat) (F : List Byte) (s : State) : (dispatch index F s).draws = s.draws := rfl
@[simp] theorem dispatch_blocks (index : Nat) (F : List Byte) (s : State) : (dispatch index F s).blocks = s.blocks := rfl

/-! `endSequence` -/

@[simp] theorem endSequence_status (index : Word32) (s : State) : (endSequence index s).status = .idle := rfl
@[simp] theorem endSequence_frameIndex (index : Word32) (s : State) : (endSequence index s).frameIndex = index := rfl
@[simp] theorem endSequence_playCount (index : Word32) (s : State) : (endSequence index s).playCount = s.playCount := rfl
@[simp] theorem endSequence_srcLen (index : Word32) (s : State) : (endSequence index s).srcLen = s.srcLen := rfl
@[simp] theorem endSequence_inFlight (index : Word32) (s : State) : (endSequence index s).inFlight = s.inFlight := rfl
@[simp] theorem endSequence_lastError (index : Word32) (s : State) : (endSequence index s).lastError = s.lastError := rfl
@[simp] theorem endSequence_src (index : Word32) (s : State) : (endSequence index s).src = s.src := rfl
@[simp] theorem endSequence_endPolicy (index : Word32) (s : State) : (endSequence index s).endPolicy = s.endPolicy := rfl
@[simp] theorem endSequence_control (index : Word32) (s : State) : (endSequence index s).control = s.control := rfl
@[simp] theorem endSequence_completion (index : Word32) (s : State) : (endSequence index s).completion = s.completion := rfl
@[simp] theorem endSequence_playing (index : Word32) (s : State) : (endSequence index s).playing = s.playing := rfl
@[simp] theorem endSequence_loading (index : Word32) (s : State) : (endSequence index s).loading = s.loading := rfl
@[simp] theorem endSequence_outputs (index : Word32) (s : State) : (endSequence index s).outputs = s.outputs ++ [.done index] := rfl
@[simp] theorem endSequence_presented (index : Word32) (s : State) : (endSequence index s).presented = s.presented := rfl
@[simp] theorem endSequence_work (index : Word32) (s : State) : (endSequence index s).work = s.work := rfl
@[simp] theorem endSequence_port (index : Word32) (s : State) : (endSequence index s).port = s.port := rfl
@[simp] theorem endSequence_schedule (index : Word32) (s : State) : (endSequence index s).schedule = s.schedule := rfl
@[simp] theorem endSequence_draws (index : Word32) (s : State) : (endSequence index s).draws = s.draws := rfl
@[simp] theorem endSequence_blocks (index : Word32) (s : State) : (endSequence index s).blocks = s.blocks := rfl

/-! `countPass` -/

@[simp] theorem countPass_status (s : State) : (countPass s).status = s.status := rfl
@[simp] theorem countPass_frameIndex (s : State) : (countPass s).frameIndex = s.frameIndex := rfl
@[simp] theorem countPass_playCount (s : State) : (countPass s).playCount = s.playCount + 1 := rfl
@[simp] theorem countPass_srcLen (s : State) : (countPass s).srcLen = s.srcLen := rfl
@[simp] theorem countPass_inFlight (s : State) : (countPass s).inFlight = s.inFlight := rfl
@[simp] theorem countPass_lastError (s : State) : (countPass s).lastError = s.lastError := rfl
@[simp] theorem countPass_src (s : State) : (countPass s).src = s.src := rfl
@[simp] theorem countPass_endPolicy (s : State) : (countPass s).endPolicy = s.endPolicy := rfl
@[simp] theorem countPass_control (s : State) : (countPass s).control = s.control := rfl
@[simp] theorem countPass_completion (s : State) : (countPass s).completion = s.completion := rfl
@[simp] theorem countPass_playing (s : State) : (countPass s).playing = s.playing := rfl
@[simp] theorem countPass_loading (s : State) : (countPass s).loading = s.loading := rfl
@[simp] theorem countPass_outputs (s : State) : (countPass s).outputs = s.outputs := rfl
@[simp] theorem countPass_presented (s : State) : (countPass s).presented = s.presented := rfl
@[simp] theorem countPass_work (s : State) : (countPass s).work = s.work := rfl
@[simp] theorem countPass_port (s : State) : (countPass s).port = s.port := rfl
@[simp] theorem countPass_schedule (s : State) : (countPass s).schedule = s.schedule := rfl
@[simp] theorem countPass_draws (s : State) : (countPass s).draws = s.draws := rfl
@[simp] theorem countPass_blocks (s : State) : (countPass s).blocks = s.blocks := rfl

/-! `openSession` -/

@[simp] theorem openSession_status (L : Word32) (s : State) : (openSession L s).status = .sending := rfl
@[simp] theorem openSession_frameIndex (L : Word32) (s : State) : (openSession L s).frameIndex = 0 := rfl
@[simp] theorem openSession_playCount (L : Word32) (s : State) : (openSession L s).playCount = 0 := rfl
@[simp] theorem openSession_srcLen (L : Word32) (s : State) : (openSession L s).srcLen = L := rfl
@[simp] theorem openSession_inFlight (L : Word32) (s : State) : (openSession L s).inFlight = s.inFlight := rfl
@[simp] theorem openSession_lastError (L : Word32) (s : State) : (openSession L s).lastError = 0 := rfl
@[simp] theorem openSession_src (L : Word32) (s : State) : (openSession L s).src = s.presented := rfl
@[simp] theorem openSession_endPolicy (L : Word32) (s : State) : (openSession L s).endPolicy = s.endPolicy := rfl
@[simp] theorem openSession_control (L : Word32) (s : State) : (openSession L s).control = s.control := rfl
@[simp] theorem openSession_completion (L : Word32) (s : State) : (openSession L s).completion = s.completion := rfl
@[simp] theorem openSession_playing (L : Word32) (s : State) : (openSession L s).playing = s.playing := rfl
@[simp] theorem openSession_loading (L : Word32) (s : State) : (openSession L s).loading = s.loading := rfl
@[simp] theorem openSession_outputs (L : Word32) (s : State) : (openSession L s).outputs = s.outputs := rfl
@[simp] theorem openSession_presented (L : Word32) (s : State) : (openSession L s).presented = s.presented := rfl
@[simp] theorem openSession_work (L : Word32) (s : State) : (openSession L s).work = s.work := rfl
@[simp] theorem openSession_port (L : Word32) (s : State) : (openSession L s).port = s.port := rfl
@[simp] theorem openSession_schedule (L : Word32) (s : State) : (openSession L s).schedule = s.schedule := rfl
@[simp] theorem openSession_draws (L : Word32) (s : State) : (openSession L s).draws = s.draws := rfl

@[simp] theorem openSession_blocks (L : Word32) (s : State) : (openSession L s).blocks = blocksOf L.toNat := rfl

/-! `resetCore` -/

@[simp] theorem resetCore_status (s : State) : (resetCore s).status = .idle := rfl
@[simp] theorem resetCore_frameIndex (s : State) : (resetCore s).frameIndex = 0 := rfl
@[simp] theorem resetCore_playCount (s : State) : (resetCore s).playCount = 0 := rfl
@[simp] theorem resetCore_srcLen (s : State) : (resetCore s).srcLen = 0 := rfl
@[simp] theorem resetCore_inFlight (s : State) : (resetCore s).inFlight = false := rfl
@[simp] theorem resetCore_lastError (s : State) : (resetCore s).lastError = 0 := rfl
@[simp] theorem resetCore_src (s : State) : (resetCore s).src = Memory.empty := rfl
@[simp] theorem resetCore_endPolicy (s : State) : (resetCore s).endPolicy = s.endPolicy := rfl
@[simp] theorem resetCore_control (s : State) : (resetCore s).control = s.control := rfl
@[simp] theorem resetCore_completion (s : State) : (resetCore s).completion = s.completion := rfl
@[simp] theorem resetCore_playing (s : State) : (resetCore s).playing = s.playing := rfl
@[simp] theorem resetCore_loading (s : State) : (resetCore s).loading = s.loading := rfl
@[simp] theorem resetCore_outputs (s : State) : (resetCore s).outputs = s.outputs := rfl
@[simp] theorem resetCore_presented (s : State) : (resetCore s).presented = s.presented := rfl
@[simp] theorem resetCore_work (s : State) : (resetCore s).work = s.work := rfl
@[simp] theorem resetCore_port (s : State) : (resetCore s).port = s.port := rfl
@[simp] theorem resetCore_schedule (s : State) : (resetCore s).schedule = s.schedule := rfl
@[simp] theorem resetCore_draws (s : State) : (resetCore s).draws = s.draws := rfl

/-! `useChoice` -/

@[simp] theorem useChoice_status (s : State) : (useChoice s).status = s.status := rfl
@[simp] theorem useChoice_frameIndex (s : State) : (useChoice s).frameIndex = s.frameIndex := rfl
@[simp] theorem useChoice_playCount (s : State) : (useChoice s).playCount = s.playCount := rfl
@[simp] theorem useChoice_srcLen (s : State) : (useChoice s).srcLen = s.srcLen := rfl
@[simp] theorem useChoice_inFlight (s : State) : (useChoice s).inFlight = s.inFlight := rfl
@[simp] theorem useChoice_lastError (s : State) : (useChoice s).lastError = s.lastError := rfl
@[simp] theorem useChoice_src (s : State) : (useChoice s).src = s.src := rfl
@[simp] theorem useChoice_endPolicy (s : State) : (useChoice s).endPolicy = s.endPolicy := rfl
@[simp] theorem useChoice_control (s : State) : (useChoice s).control = s.control := rfl
@[simp] theorem useChoice_completion (s : State) : (useChoice s).completion = s.completion := rfl
@[simp] theorem useChoice_playing (s : State) : (useChoice s).playing = s.playing := rfl
@[simp] theorem useChoice_loading (s : State) : (useChoice s).loading = s.loading := rfl
@[simp] theorem useChoice_outputs (s : State) : (useChoice s).outputs = s.outputs := rfl
@[simp] theorem useChoice_presented (s : State) : (useChoice s).presented = s.presented := rfl
@[simp] theorem useChoice_work (s : State) : (useChoice s).work = s.work := rfl
@[simp] theorem useChoice_port (s : State) : (useChoice s).port = s.port := rfl
@[simp] theorem useChoice_schedule (s : State) : (useChoice s).schedule = s.schedule.tail := rfl
@[simp] theorem useChoice_draws (s : State) : (useChoice s).draws = s.draws + 1 := rfl
@[simp] theorem useChoice_blocks (s : State) : (useChoice s).blocks = s.blocks := rfl

/-! `postControl` -/

@[simp] theorem postControl_status (c : ControlItem) (s : State) : (postControl c s).status = s.status := rfl
@[simp] theorem postControl_frameIndex (c : ControlItem) (s : State) : (postControl c s).frameIndex = s.frameIndex := rfl
@[simp] theorem postControl_playCount (c : ControlItem) (s : State) : (postControl c s).playCount = s.playCount := rfl
@[simp] theorem postControl_srcLen (c : ControlItem) (s : State) : (postControl c s).srcLen = s.srcLen := rfl
@[simp] theorem postControl_inFlight (c : ControlItem) (s : State) : (postControl c s).inFlight = s.inFlight := rfl
@[simp] theorem postControl_lastError (c : ControlItem) (s : State) : (postControl c s).lastError = s.lastError := rfl
@[simp] theorem postControl_src (c : ControlItem) (s : State) : (postControl c s).src = s.src := rfl
@[simp] theorem postControl_endPolicy (c : ControlItem) (s : State) : (postControl c s).endPolicy = s.endPolicy := rfl
@[simp] theorem postControl_control (c : ControlItem) (s : State) : (postControl c s).control = s.control ++ [c] := rfl
@[simp] theorem postControl_completion (c : ControlItem) (s : State) : (postControl c s).completion = s.completion := rfl
@[simp] theorem postControl_playing (c : ControlItem) (s : State) : (postControl c s).playing = s.playing := rfl
@[simp] theorem postControl_loading (c : ControlItem) (s : State) : (postControl c s).loading = s.loading := rfl
@[simp] theorem postControl_outputs (c : ControlItem) (s : State) : (postControl c s).outputs = s.outputs := rfl
@[simp] theorem postControl_presented (c : ControlItem) (s : State) : (postControl c s).presented = s.presented := rfl
@[simp] theorem postControl_work (c : ControlItem) (s : State) : (postControl c s).work = s.work := rfl
@[simp] theorem postControl_port (c : ControlItem) (s : State) : (postControl c s).port = s.port := rfl
@[simp] theorem postControl_schedule (c : ControlItem) (s : State) : (postControl c s).schedule = s.schedule := rfl
@[simp] theorem postControl_draws (c : ControlItem) (s : State) : (postControl c s).draws = s.draws := rfl
@[simp] theorem postControl_blocks (c : ControlItem) (s : State) : (postControl c s).blocks = s.blocks := rfl

/-! `postCompletion` -/

@[simp] theorem postCompletion_status (w : EventWord) (s : State) : (postCompletion w s).status = s.status := rfl
@[simp] theorem postCompletion_frameIndex (w : EventWord) (s : State) : (postCompletion w s).frameIndex = s.frameIndex := rfl
@[simp] theorem postCompletion_playCount (w : EventWord) (s : State) : (postCompletion w s).playCount = s.playCount := rfl
@[simp] theorem postCompletion_srcLen (w : EventWord) (s : State) : (postCompletion w s).srcLen = s.srcLen := rfl
@[simp] theorem postCompletion_inFlight (w : EventWord) (s : State) : (postCompletion w s).inFlight = s.inFlight := rfl
@[simp] theorem postCompletion_lastError (w : EventWord) (s : State) : (postCompletion w s).lastError = s.lastError := rfl
@[simp] theorem postCompletion_src (w : EventWord) (s : State) : (postCompletion w s).src = s.src := rfl
@[simp] theorem postCompletion_endPolicy (w : EventWord) (s : State) : (postCompletion w s).endPolicy = s.endPolicy := rfl
@[simp] theorem postCompletion_control (w : EventWord) (s : State) : (postCompletion w s).control = s.control := rfl
@[simp] theorem postCompletion_completion (w : EventWord) (s : State) : (postCompletion w s).completion = s.completion ++ [w] := rfl
@[simp] theorem postCompletion_playing (w : EventWord) (s : State) : (postCompletion w s).playing = s.playing := rfl
@[simp] theorem postCompletion_loading (w : EventWord) (s : State) : (postCompletion w s).loading = s.loading := rfl
@[simp] theorem postCompletion_outputs (w : EventWord) (s : State) : (postCompletion w s).outputs = s.outputs := rfl
@[simp] theorem postCompletion_presented (w : EventWord) (s : State) : (postCompletion w s).presented = s.presented := rfl
@[simp] theorem postCompletion_work (w : EventWord) (s : State) : (postCompletion w s).work = s.work := rfl
@[simp] theorem postCompletion_port (w : EventWord) (s : State) : (postCompletion w s).port = s.port := rfl
@[simp] theorem postCompletion_schedule (w : EventWord) (s : State) : (postCompletion w s).schedule = s.schedule := rfl
@[simp] theorem postCompletion_draws (w : EventWord) (s : State) : (postCompletion w s).draws = s.draws := rfl
@[simp] theorem postCompletion_blocks (w : EventWord) (s : State) : (postCompletion w s).blocks = s.blocks := rfl

end Sys2Proof.Machine
end

