-- ==== Sys2Proof/Laws/Ops.lean ====
section
/-! SUPPORT. What each shared operation can do, said once: if it answers, then these. -/

namespace Sys2Proof.Machine

@[simp] theorem outcomeOf_ok (s : State) : outcomeOf (.ok s) = .next s := rfl

@[simp] theorem outcomeOf_error (f : Fault) : outcomeOf (.error f) = .fault f := rfl

theorem outcomeOf_next {r : Except Fault State} {t : State} : outcomeOf r = .next t ↔ r = .ok t := by
  cases r <;> simp [outcomeOf]

theorem outcomeOf_fault {r : Except Fault State} {f : Fault} : outcomeOf r = .fault f ↔ r = .error f := by
  cases r <;> simp [outcomeOf]

theorem outcomeOf_not_refused {r : Except Fault State} {q : Refusal} : outcomeOf r ≠ .refused q := by
  cases r <;> simp [outcomeOf]

/-- `memRead` answers exactly inside `[0, srcLen)` of a buffer that has the bytes, with those bytes. -/
theorem memRead_ok {a n : Nat} {s : State} {B : List Byte} :
    memRead a n s = .ok B ↔ (a + n ≤ s.srcLen.toNat ∧ a + n ≤ s.src.len) ∧ B = s.src.bytes a n := by
  unfold memRead
  split
  · next h => simp [h, eq_comm]
  · next h => simp [h]

theorem memRead_inside {a n : Nat} {s : State} (h : a + n ≤ s.srcLen.toNat) (h' : a + n ≤ s.src.len) :
    memRead a n s = .ok (s.src.bytes a n) := memRead_ok.2 ⟨⟨h, h'⟩, rfl⟩

/-- The guarded encoder answers exactly within its precondition, with the frame. -/
theorem callBuildDataFrame_ok {C : List Byte} {k : Nat} {F : List Byte} :
    callBuildDataFrame C k = .ok F ↔
      (chunkOk C = true ∧ k < maxBlocks) ∧ F = buildDataFrame Config.providers C (BitVec.ofNat 16 k) := by
  unfold callBuildDataFrame
  split
  · next h => simp [h, eq_comm]
  · next h => simp [h]

theorem callBuildControlFrame_ok {B F : List Byte} :
    callBuildControlFrame B = .ok F ↔ B.length < 2 ^ 32 ∧ F = buildControlFrame Config.providers B := by
  unfold callBuildControlFrame
  split
  · next h => simp only [h, true_and, Except.ok.injEq, eq_comm]
  · next h => simp only [h, false_and, reduceCtorEq]

/-- An operation run by itself changes the frame space only. -/
theorem leaveResult_next {r : Except Fault (List Byte)} {s t : State} :
    leaveResult r s = .next t ↔ ∃ F, r = .ok F ∧ t = { s with work := F } := by
  cases r <;> simp [leaveResult, eq_comm]

theorem chunkOk_iff {C : List Byte} : chunkOk C = true ↔ 0 < C.length ∧ C.length ≤ 256 := by
  simp [chunkOk]

/-- The chunk of an existing block lies inside the buffer and has 1 to 256 bytes (42_sequencer.md R122). -/
theorem chunkLength_bounds {L i : Nat} (h : i < blocksOf L) :
    256 * i + chunkLength L i ≤ L ∧ 0 < chunkLength L i ∧ chunkLength L i ≤ 256 := by
  unfold chunkLength chunkSize blocksOf at *
  split <;> omega

theorem blocksOf_le {L : Nat} (h : L ≤ maxLen) : blocksOf L ≤ maxBlocks := by
  unfold blocksOf maxLen maxBlocks at *
  omega

end Sys2Proof.Machine
end

