-- ==== Sys2Proof/Laws/PerInstr.lean ====
section
/-! SUPPORT. Facts about every instruction as syntax, one lemma per constructor. -/

namespace Sys2Proof.Laws.EncodingSelectsItsRow

open Machine

/-- The encoding of an instruction has the bits by which its row of the opcode table is selected (30_encoding.md R74). -/
def Statement (i : Instr) : Prop :=
  ∀ t, encode i = some t → ∃ r, i.row = some r ∧ r.selects t.tableBits = true

theorem event_selects (code : Byte) (arg : Word32) :
    (eventWord code arg).toNat &&& 0xFF00000000 = code.toNat * 2 ^ 32 := by
  have h : ((eventWord code arg) &&& 0xFF00000000#40) = (code ++ (0 : Word32) : BitVec 40) := by
    apply BitVec.eq_of_getLsbD_eq
    intro i hi
    have hm : (0xFF00000000#40).getLsbD i = decide (32 ≤ i ∧ i < 40) := by
      revert hi; revert i; decide
    simp only [eventWord, BitVec.getLsbD_and, BitVec.getLsbD_append, hm]
    by_cases h32 : i < 32
    · simp [h32]
    · have : 32 ≤ i ∧ i < 40 := by omega
      simp [h32, this]
  have h2 := congrArg BitVec.toNat h
  rw [BitVec.toNat_and] at h2
  simp only [BitVec.toNat_ofNat] at h2
  have h3 : (code ++ (0 : Word32) : BitVec 40).toNat = code.toNat * 2 ^ 32 := by
    rw [BitVec.toNat_append]
    simp [Nat.shiftLeft_eq]
  rw [h3] at h2
  exact h2

theorem event_row {code : Byte} {arg : Word32} {p : Nat} (h : code.toNat * 2 ^ 32 = p) :
    (TableRow.mk 40 p 0xFF00000000).selects (Transaction.event (eventWord code arg)).tableBits = true := by
  simp only [TableRow.selects, Transaction.tableBits, event_selects, h, beq_self_eq_true]

theorem controlFrame (f : ControlFields) : Statement (.controlFrame f) := by
  rintro t ⟨⟩
  refine ⟨_, rfl, ?_⟩
  simp [TableRow.selects, Transaction.tableBits, controlBytes, preamble, ctrlVersion, fromLe]

theorem dataFrame (f : DataFields) : Statement (.dataFrame f) := by
  rintro t ⟨⟩
  refine ⟨_, rfl, ?_⟩
  have h : (dataBytes f).take 8 = [0x00, 0x00, 0x00, 0x00, 0xAA, 0x55, 0x42, 0x01] := by
    apply List.ext_getElem?
    intro q
    by_cases hq : q < 8
    · rw [List.getElem?_take_of_lt hq, dataBytes, stripe_getElem?]
      simp only [assembledBytes, blockHashInput, preamble, dataVersion, List.cons_append, List.nil_append]
      have : q = 0 ∨ q = 1 ∨ q = 2 ∨ q = 3 ∨ q = 4 ∨ q = 5 ∨ q = 6 ∨ q = 7 := by omega
      rcases this with rfl | rfl | rfl | rfl | rfl | rfl | rfl | rfl <;> simp [stripeByte]
    · rw [List.getElem?_eq_none (by simp; omega), List.getElem?_eq_none (by simp; omega)]
  simp only [TableRow.selects, Transaction.tableBits, h]
  decide

theorem start (len : Word32) : Statement (.start len) := by
  rintro t ⟨⟩
  exact ⟨_, rfl, event_row rfl⟩

theorem stop : Statement .stop := by
  rintro t ⟨⟩
  exact ⟨_, rfl, by decide⟩

theorem complete (n : Word32) : Statement (.complete n) := by
  rintro t ⟨⟩
  exact ⟨_, rfl, event_row rfl⟩

theorem loadFail : Statement .loadFail := by
  rintro t ⟨⟩
  exact ⟨_, rfl, by decide⟩

theorem transmit (next : Word32) : Statement (.transmit next) := by
  rintro t ⟨⟩
  exact ⟨_, rfl, event_row rfl⟩

theorem done (endIndex : Word32) : Statement (.done endIndex) := by
  rintro t ⟨⟩
  exact ⟨_, rfl, event_row rfl⟩

theorem error (arg : Word32) : Statement (.error arg) := by
  rintro t ⟨⟩
  exact ⟨_, rfl, event_row rfl⟩

theorem step (index : Word32) : Statement (.step index) := by rintro t ⟨⟩

theorem buildControlFrame (buffer : List Byte) : Statement (.buildControlFrame buffer) := by rintro t ⟨⟩

theorem buildDataFrame (chunk : List Byte) (k : Nat) : Statement (.buildDataFrame chunk k) := by rintro t ⟨⟩

theorem pad (chunk : List Byte) : Statement (.pad chunk) := by rintro t ⟨⟩

theorem stripe (frame : List Byte) : Statement (.stripe frame) := by rintro t ⟨⟩

end Sys2Proof.Laws.EncodingSelectsItsRow
end

