-- ==== Sys2Proof/Laws/Sequencer.lean ====
section
/-! SUPPORT. What `step(index)` and the input events can do: one inversion lemma each (42_sequencer.md). -/

namespace Sys2Proof.Machine

theorem controlStep_ok {index : Nat} {s t : State} :
    controlStep index s = .ok t ↔
      s.srcLen.toNat ≤ s.src.len ∧
        t = dispatch index (buildControlFrame Config.providers (s.src.bytes 0 s.srcLen.toNat)) s := by
  unfold controlStep
  cases h : memRead 0 s.srcLen.toNat s with
  | ok B =>
    obtain ⟨h1, rfl⟩ := memRead_ok.1 h
    simp only [Except.ok.injEq]
    constructor
    · rintro rfl; exact ⟨by omega, rfl⟩
    · rintro ⟨_, rfl⟩; rfl
  | error f =>
    simp only [reduceCtorEq, false_iff, not_and]
    intro hl
    rw [memRead_inside (by omega) (by omega)] at h
    cases h

theorem dataStep_ok {index : Nat} {s t : State} :
    dataStep index s = .ok t ↔
      (256 * (index - 2) + chunkLength s.srcLen.toNat (index - 2) ≤ s.srcLen.toNat ∧
        256 * (index - 2) + chunkLength s.srcLen.toNat (index - 2) ≤ s.src.len) ∧
      (0 < chunkLength s.srcLen.toNat (index - 2) ∧ chunkLength s.srcLen.toNat (index - 2) ≤ 256) ∧
      index - 2 < maxBlocks ∧
      t = dispatch index (buildDataFrame Config.providers
        (s.src.bytes (256 * (index - 2)) (chunkLength s.srcLen.toNat (index - 2))) (BitVec.ofNat 16 (index - 2))) s := by
  unfold dataStep
  simp only [chunkSize]
  cases h : memRead (256 * (index - 2)) (chunkLength s.srcLen.toNat (index - 2)) s with
  | error f =>
    simp only [reduceCtorEq, false_iff, not_and]
    intro hl
    rw [memRead_inside hl.1 hl.2] at h
    cases h
  | ok C =>
    obtain ⟨h1, rfl⟩ := memRead_ok.1 h
    simp only
    cases h2 : callBuildDataFrame
        (s.src.bytes (256 * (index - 2)) (chunkLength s.srcLen.toNat (index - 2))) (index - 2) with
    | ok F =>
      obtain ⟨⟨hc, hk⟩, rfl⟩ := callBuildDataFrame_ok.1 h2
      rw [chunkOk_iff, Memory.bytes_length] at hc
      simp only [Except.ok.injEq]
      constructor
      · rintro rfl; exact ⟨h1, hc, hk, rfl⟩
      · rintro ⟨_, _, _, rfl⟩; rfl
    | error f =>
      simp only [reduceCtorEq, false_iff, not_and]
      intro _ hc hk
      have := (callBuildDataFrame_ok (C := s.src.bytes (256 * (index - 2))
        (chunkLength s.srcLen.toNat (index - 2)))).2 ⟨⟨chunkOk_iff.2 (by simpa [Memory.bytes_length] using hc), hk⟩, rfl⟩
      rw [this] at h2
      cases h2

/-- The six ways of `step(index)` (R118): cancelled, control step, data step, the wrap of LOOP, the end, and the index
past the end, on which the model faults (93_implementation_defined.md U15). -/
theorem sequencerStep_cases (index : Word32) (s : State) :
    (s.status = .idle ∧ sequencerStep index s = .ok s) ∨
    (s.status = .sending ∧ index.toNat < 2 ∧ sequencerStep index s = controlStep index.toNat s) ∨
    (s.status = .sending ∧ 2 ≤ index.toNat ∧ index.toNat - 2 < s.blocks ∧
      sequencerStep index s = dataStep index.toNat s) ∨
    (s.status = .sending ∧ index.toNat = 2 + s.blocks ∧ s.endPolicy = .loop ∧ 1 ≤ s.blocks ∧
      sequencerStep index s = dataStep 2 (countPass s)) ∨
    (s.status = .sending ∧ index.toNat = 2 + s.blocks ∧ (s.endPolicy = .stop ∨ s.blocks = 0) ∧
      sequencerStep index s = .ok (endSequence index s)) ∨
    (s.status = .sending ∧ 2 + s.blocks < index.toNat ∧ sequencerStep index s = .error .stepPastEnd) := by
  cases hs : s.status with
  | idle => exact .inl ⟨rfl, by simp [sequencerStep, hs]⟩
  | sending =>
    refine .inr ?_
    have hn : s.status ≠ .idle := by simp [hs]
    by_cases h0 : 2 + s.blocks < index.toNat
    · refine .inr (.inr (.inr (.inr ⟨rfl, h0, ?_⟩)))
      unfold sequencerStep
      rw [if_neg hn, if_pos (by simpa [ctrlRepeat] using h0)]
    have hp : ¬ctrlRepeat + s.blocks < index.toNat := by simpa [ctrlRepeat] using h0
    by_cases h1 : index.toNat < 2
    · refine .inl ⟨rfl, h1, ?_⟩
      unfold sequencerStep
      rw [if_neg hn, if_neg hp, if_pos (by simpa [ctrlRepeat] using h1)]
    have h1' : ¬index.toNat < ctrlRepeat := by simpa [ctrlRepeat] using h1
    refine .inr ?_
    by_cases h2 : index.toNat - 2 < s.blocks
    · refine .inl ⟨rfl, by omega, h2, ?_⟩
      unfold sequencerStep
      rw [if_neg hn, if_neg hp, if_neg h1', if_pos h2]
    refine .inr ?_
    by_cases h3 : s.endPolicy = .loop ∧ 1 ≤ s.blocks
    · refine .inl ⟨rfl, by omega, h3.1, h3.2, ?_⟩
      unfold sequencerStep
      rw [if_neg hn, if_neg hp, if_neg h1', if_neg h2, if_pos h3]
    · refine .inr (.inl ⟨rfl, by omega, ?_, ?_⟩)
      · cases hpol : s.endPolicy with
        | stop => exact .inl rfl
        | loop => right; simp only [hpol, true_and] at h3; omega
      · unfold sequencerStep
        rw [if_neg hn, if_neg hp, if_neg h1', if_neg h2, if_neg h3]

/-- What START can answer (R110 to R113, 30_encoding.md R71). -/
theorem execStart_cases (L : Word32) (s : State) :
    (s.presents L = false ∧ execStart L s = .refused .bufferLengthMismatch) ∨
    (s.presents L = true ∧ s.status = .sending ∧ execStart L s = .next s) ∨
    (s.presents L = true ∧ s.status = .idle ∧ s.inFlight = true ∧ execStart L s = .next s) ∨
    (s.presents L = true ∧ s.status = .idle ∧ s.inFlight = false ∧ maxLen < L.toNat ∧
      execStart L s = .next (raise .rangeOverflow s)) ∨
    (s.presents L = true ∧ s.status = .idle ∧ s.inFlight = false ∧ L.toNat ≤ maxLen ∧
      execStart L s = outcomeOf (controlStep 0 (openSession L s))) := by
  unfold execStart
  cases hp : s.presents L with
  | false => exact .inl ⟨rfl, by simp⟩
  | true =>
    refine .inr ?_
    cases hst : s.status with
    | sending => exact .inl ⟨rfl, rfl, by simp⟩
    | idle =>
      refine .inr ?_
      cases hf : s.inFlight with
      | true => exact .inl ⟨rfl, rfl, rfl, by simp⟩
      | false =>
        refine .inr ?_
        by_cases hL : maxLen < L.toNat
        · exact .inl ⟨rfl, rfl, rfl, hL, by simp [hL]⟩
        · refine .inr ⟨rfl, rfl, rfl, by omega, ?_⟩
          simp [hL, sequencerStep, ctrlRepeat]

/-- What COMPLETE can answer (R116). -/
theorem execComplete_cases (n : Word32) (s : State) :
    (s.inFlight = false ∧ execComplete n s = .next (raise .spuriousCompletion s)) ∨
    (s.inFlight = true ∧ n.toNat ≠ s.expectedEcho ∧
      execComplete n s = .next (raise .completionMismatch (setIdle (clearInFlight s)))) ∨
    (s.inFlight = true ∧ n.toNat = s.expectedEcho ∧
      execComplete n s = outcomeOf (sequencerStep n (clearInFlight s))) := by
  unfold execComplete
  cases hf : s.inFlight with
  | false => exact .inl ⟨rfl, by simp⟩
  | true =>
    refine .inr ?_
    by_cases hn : n.toNat = s.expectedEcho
    · exact .inr ⟨rfl, hn, by simp [hn]⟩
    · exact .inl ⟨rfl, hn, by simp [hn]⟩

end Sys2Proof.Machine
end

