-- ==== Sys2Proof/Laws/Step.lean ====
section
/-! SUPPORT. What taking the next event and a whole step can do, said once. -/

namespace Sys2Proof.Machine

/-- The next transaction with an empty port: the head of an enabled channel, its channel shortened, and a choice used up
where both heads are enabled (42_sequencer.md R105). -/
theorem fetch_cases {s : State} {f : Fetched} (hp : s.port = none) (h : fetch s = some f) :
    ∃ s', (s' = s ∨ s' = useChoice s) ∧
      ((∃ c cs, s.control = c :: cs ∧ held s c = false ∧ f.source = .control ∧ f.item = .event c.word ∧
          f.rest = { s' with control := cs, presented := c.side }) ∨
       (∃ w ws, s.completion = w :: ws ∧ f.source = .completion ∧ f.item = .event w ∧
          f.rest = { s' with completion := ws })) := by
  have hctl : ∀ s' : State, s'.control = s.control → controlReady s = true → takeControl s' = some f →
      ∃ c cs, s.control = c :: cs ∧ held s c = false ∧ f.source = .control ∧ f.item = .event c.word ∧
          f.rest = { s' with control := cs, presented := c.side } := by
    intro s' hc hr ht
    unfold takeControl at ht
    unfold controlReady at hr
    rw [hc] at ht
    cases hcs : s.control with
    | nil => simp [hcs] at ht
    | cons c cs =>
      simp only [hcs, Option.some.injEq] at ht hr
      subst ht
      exact ⟨c, cs, rfl, by simpa using hr, rfl, rfl, rfl⟩
  have hcmp : ∀ s' : State, s'.completion = s.completion → takeCompletion s' = some f →
      ∃ w ws, s.completion = w :: ws ∧ f.source = .completion ∧ f.item = .event w ∧
          f.rest = { s' with completion := ws } := by
    intro s' hc ht
    unfold takeCompletion at ht
    rw [hc] at ht
    cases hcs : s.completion with
    | nil => simp [hcs] at ht
    | cons w ws =>
      simp only [hcs, Option.some.injEq] at ht
      subst ht
      exact ⟨w, ws, rfl, rfl, rfl, rfl⟩
  unfold fetch at h
  rw [hp] at h
  simp only at h
  split at h
  · next hr =>
    split at h
    · split at h
      · exact ⟨useChoice s, .inr rfl, .inl (hctl _ rfl hr h)⟩
      · exact ⟨useChoice s, .inr rfl, .inr (hcmp _ rfl h)⟩
    · exact ⟨s, .inl rfl, .inl (hctl _ rfl hr h)⟩
  · split at h
    · exact ⟨s, .inl rfl, .inr (hcmp _ rfl h)⟩
    · cases h

/-- What the two channels carry (30_encoding.md R68). -/
theorem interpret_ok {src : Source} {t : Transaction} {i : Instr} :
    interpret src t = .ok i ↔ decode t = .ok i ∧ src.carries i = true := by
  unfold interpret
  cases decode t with
  | error e => simp
  | ok j =>
    simp only [Except.ok.injEq]
    split
    · next h =>
      constructor
      · intro hj; cases hj; exact ⟨rfl, h⟩
      · rintro ⟨rfl, _⟩; rfl
    · next h =>
      split <;> simp only [reduceCtorEq, false_iff, not_and] <;> rintro rfl <;> exact h

/-- The control channel carries three instructions (42_sequencer.md R105). -/
theorem control_carries {i : Instr} (h : Source.control.carries i = true) :
    (∃ L, i = .start L) ∨ i = .stop ∨ i = .loadFail := by
  cases i with
  | start L => exact .inl ⟨L, rfl⟩
  | stop => exact .inr (.inl rfl)
  | loadFail => exact .inr (.inr rfl)
  | _ => cases h

/-- The completion channel carries COMPLETE (42_sequencer.md R105). -/
theorem completion_carries {i : Instr} (h : Source.completion.carries i = true) : ∃ n, i = .complete n := by
  cases i with
  | complete n => exact ⟨n, rfl⟩
  | _ => cases h

/-- A step that answers a next state either waited or ran the instruction it took. -/
theorem step_next {s t : State} (h : step s = .next t) :
    ¬(s.status = .sending ∧ s.inFlight = false) ∧
      ((fetch s = none ∧ t = s) ∨
       (∃ f i, fetch s = some f ∧ decode f.item = .ok i ∧ f.source.carries i = true ∧ exec i f.rest = .next t)) := by
  unfold step at h
  split at h
  · cases h
  · next hn =>
    refine ⟨hn, ?_⟩
    cases hf : fetch s with
    | none => simp only [hf, Host.Outcome.next.injEq] at h; exact .inl ⟨rfl, h.symm⟩
    | some f =>
      simp only [hf] at h
      cases hi : interpret f.source f.item with
      | error r => simp [hi] at h
      | ok i =>
        simp only [hi] at h
        have := interpret_ok.1 hi
        exact .inr ⟨f, i, rfl, this.1, this.2, h⟩

/-- A step that faults is either in the state the rules exclude or ran an instruction that faults. -/
theorem step_fault {s : State} {x : Fault} (h : step s = .fault x) :
    (s.status = .sending ∧ s.inFlight = false ∧ x = .sendingWithoutFrame) ∨
    (∃ f i, fetch s = some f ∧ decode f.item = .ok i ∧ f.source.carries i = true ∧ exec i f.rest = .fault x) := by
  unfold step at h
  split at h
  · next hs => cases h; exact .inl ⟨hs.1, hs.2, rfl⟩
  · cases hf : fetch s with
    | none => simp [hf] at h
    | some f =>
      simp only [hf] at h
      cases hi : interpret f.source f.item with
      | error r => simp [hi] at h
      | ok i =>
        simp only [hi] at h
        have := interpret_ok.1 hi
        exact .inr ⟨f, i, rfl, this.1, this.2, h⟩

end Sys2Proof.Machine
end

