-- ==== Sys2Proof/Tests/Slice0.lean ====
section
/-! SUPPORT. Tests: the checks of WellFormed, words written out from the spec's tables, the vectors of 95_test_vectors.md
(test providers, frames, single events), and one witness for the hypotheses of each statement. -/

namespace Sys2Proof.Tests

open Sys2Proof Sys2Proof.Machine

/-! ## Helpers -/

/-- The weighted sum of `TH32`, from weight `k` on (95_test_vectors.md §0). -/
def weighted : Nat → List Byte → Nat
  | _, [] => 0
  | k, b :: bs => k * b.toNat + weighted (k + 1) bs

/-- The plain sum of `TD128` (95_test_vectors.md §0). -/
def plain : List Byte → Nat
  | [] => 0
  | b :: bs => b.toNat + plain bs

/-- The test providers `TH32` and `TD128` (95_test_vectors.md §0). -/
def testProviders : Providers where
  hash32 := fun d seed => BitVec.ofNat 32 (seed.toNat + weighted 1 d)
  digest128 := fun d => Vector.ofFn fun m => BitVec.ofNat 8 (17 * m.val + d.length + plain d)

/-- The bytes `k mod 256` for `k = a .. a+n-1`: slices of B300 and B1000. -/
def counting : Nat → Nat → List Byte
  | _, 0 => []
  | a, n + 1 => BitVec.ofNat 8 a :: counting (a + 1) n

/-- A state written as the spec writes it, `(status, inFlight, frameIndex, srcLen)`, with a source of zeros. -/
def at' (st : Status) (fl : Bool) (idx len : Word32) : State :=
  { State.reset with status := st, inFlight := fl, frameIndex := idx, srcLen := len, src := ⟨len.toNat, []⟩ }

/-- A word at the head of the control channel, with a buffer of zeros beside it. -/
def onCtl (w : EventWord) (n : Nat) (s : State) : State := { s with control := [⟨w, ⟨n, []⟩⟩] }

/-- A word at the head of the completion channel. -/
def onCmp (w : EventWord) (s : State) : State := { s with completion := [w] }

/-- What the spec's table shows of the state after an event, and the words of the outputs. -/
structure View where
  status : Status
  inFlight : Bool
  frameIndex : Word32
  srcLen : Word32
  lastError : BitVec 3
  words : List EventWord
  deriving DecidableEq, Repr

/-- The next state, if the outcome is one. -/
def stateOf (o : Host.Outcome State Fault Refusal) : Option State :=
  match o with
  | .next s => some s
  | .fault _ => none
  | .refused _ => none

def view (o : Host.Outcome State Fault Refusal) : Option View :=
  (stateOf o).map fun s => ⟨s.status, s.inFlight, s.frameIndex, s.srcLen, s.lastError, s.outputs.map Output.word⟩

def faultOf (o : Host.Outcome State Fault Refusal) : Option Fault :=
  match o with
  | .next _ => none
  | .fault f => some f
  | .refused _ => none

def refusalOf (o : Host.Outcome State Fault Refusal) : Option Refusal :=
  match o with
  | .next _ => none
  | .fault _ => none
  | .refused r => some r

/-- The frame space after an operation run by itself. -/
def result (o : Host.Outcome State Fault Refusal) : Option (List Byte) := (stateOf o).map State.work

/-! ## WellFormed: an ill-formed term for each check -/

theorem test_wf_digest_length : (Instr.controlFrame ⟨0, 0, rep 15 0, 0, 0xFF⟩).wellFormed = false := by decide
theorem test_wf_ctrl_terminator : (Instr.controlFrame ⟨0, 0, rep 16 0, 0, 0xFE⟩).wellFormed = false := by decide
theorem test_wf_payload_length : (Instr.dataFrame ⟨0, rep 255 0, 0, 0xFF⟩).wellFormed = false := by decide +kernel
theorem test_wf_data_terminator : (Instr.dataFrame ⟨0, rep 256 0, 0, 0⟩).wellFormed = false := by decide +kernel
theorem test_wf_transmit_zero : (Instr.transmit 0).wellFormed = false := by decide
theorem test_wf_error_code : (Instr.error 5).wellFormed = false := by decide
theorem test_wf_buffer_length : (Instr.buildControlFrame (List.replicate (2 ^ 32) 0)).wellFormed = false := by
  simp only [Instr.wellFormed, List.length_replicate, Nat.lt_irrefl, decide_false]
theorem test_wf_chunk_empty : (Instr.buildDataFrame [] 0).wellFormed = false := by decide
theorem test_wf_chunk_long : (Instr.buildDataFrame (rep 257 0) 0).wellFormed = false := by decide +kernel
theorem test_wf_block_number : (Instr.buildDataFrame [0x41] 65536).wellFormed = false := by decide
theorem test_wf_pad_empty : (Instr.pad []).wellFormed = false := by decide
theorem test_wf_stripe_length : (Instr.stripe (rep 270 0)).wellFormed = false := by decide +kernel

/-! ## Decode: words of 95_test_vectors.md 4.2, frames of 2.2 and 2.3 -/

theorem test_decode_start : decode (.event 0x0101000001) = .ok (.start 16777217) := by decide
theorem test_decode_stop : decode (.event 0x0200000000) = .ok .stop := by decide
theorem test_decode_complete : decode (.event 0x0300000003) = .ok (.complete 3) := by decide
theorem test_decode_load_fail : decode (.event 0x0400000000) = .ok .loadFail := by decide
theorem test_decode_transmit : decode (.event 0x1000000004) = .ok (.transmit 4) := by decide
theorem test_decode_done : decode (.event 0x1100000004) = .ok (.done 4) := by decide
theorem test_decode_error : decode (.event 0x1200000002) = .ok (.error 2) := by decide

/-- EV-C2, written out. -/
def evC2 : List Byte :=
  [0x00, 0x00, 0x00, 0x00, 0xAA, 0x55, 0x42, 0x81, 0x01, 0x00, 0x00, 0x00, 0xFF, 0xBA, 0xD0, 0x32,
   0x42, 0x53, 0x64, 0x75, 0x86, 0x97, 0xA8, 0xB9, 0xCA, 0xDB, 0xEC, 0xFD, 0x0E, 0x1F, 0x30, 0x41,
   0x5A, 0x28, 0xAE, 0xDE, 0xFF]

/-- The 16-byte row of padding as sent (EV-D2, EV-D3). -/
def padRow : List Byte :=
  [0xFF, 0xFF, 0xFF, 0xFF, 0xFF, 0xFF, 0x55, 0xFF, 0xFF, 0xFF, 0xFF, 0xFF, 0xFF, 0xFF, 0xAA, 0xFF]

/-- EV-D2 as sent, written out. -/
def evD2 : List Byte :=
  [0x00, 0x00, 0x00, 0x00, 0xAA, 0x55, 0x42, 0x01, 0x01, 0x00, 0x00, 0x01, 0x02, 0x03, 0x51, 0x05,
   0x06, 0x07, 0x08, 0x09, 0x0A, 0x0B, 0xA6, 0x0D, 0x0E, 0x0F, 0x10, 0x11, 0x12, 0x13, 0x41, 0x15,
   0x16, 0x17, 0x18, 0x19, 0x1A, 0x1B, 0xB6, 0x1D, 0x1E, 0x1F, 0x20, 0x21, 0x22, 0x23, 0x71, 0x25,
   0x26, 0x27, 0x28, 0x29, 0x2A, 0x2B, 0x55, 0xFF, 0xFF, 0xFF, 0xFF, 0xFF, 0xFF, 0xFF, 0xAA, 0xFF] ++
  (List.replicate 12 padRow).flatten ++
  [0xFF, 0xFF, 0xFF, 0xFF, 0xFF, 0xFF, 0x55, 0xFF, 0xFF, 0xFF, 0xC6, 0xD7, 0x2C, 0xDF, 0xFF]

/-- EV-D3 as sent, written out. -/
def evD3 : List Byte :=
  [0x00, 0x00, 0x00, 0x00, 0xAA, 0x55, 0x42, 0x01, 0xFF, 0xFF, 0x41, 0xFF, 0xFF, 0xFF, 0xAA, 0xFF] ++
  (List.replicate 15 padRow).flatten ++
  [0xFF, 0xFF, 0xFF, 0xFF, 0xFF, 0xFF, 0x55, 0xFF, 0xFF, 0xFF, 0x73, 0xBD, 0x30, 0xDF, 0xFF]

theorem test_decode_control_frame : decode (.frame evC2) = .ok (.controlFrame
    ⟨1, 0x32D0BAFF, [0x42, 0x53, 0x64, 0x75, 0x86, 0x97, 0xA8, 0xB9, 0xCA, 0xDB, 0xEC, 0xFD, 0x0E, 0x1F, 0x30, 0x41],
      0xDEAE285A, 0xFF⟩) := by decide +kernel

theorem test_decode_data_frame :
    decode (.frame evD3) = .ok (.dataFrame ⟨0xFFFF, 0x41 :: rep 255 0xFF, 0xDF30BD73, 0xFF⟩) := by decide +kernel

/-- Q-15, Q-16 and the bytes of no format (30_encoding.md R64, R66, R70). -/
theorem test_decode_rejects :
    decode (.event 0x0500000000) = .error (.reservedCode 5) ∧
    decode (.event 0x0200000001) = .error (.reservedArgument 2 1) ∧
    decode (.event 0x0480000000) = .error (.reservedArgument 4 0x80000000) ∧
    decode (.frame [0, 0, 0]) = .error .unknownFrameType ∧
    decode (.frame (evC2 ++ [0])) = .error .wrongFrameLength ∧
    decode (.frame (0x01 :: evC2.tail)) = .error .wrongPreamble := by decide +kernel

/-- The nine rows of the opcode table, as the table numbers them, select their instruction. -/
theorem test_table_rows :
    tableRows.map (fun r => (decodeTableWord r.nbits r.pattern).bind Instr.row) = tableRows.map some := by
  decide +kernel

/-- Each row's word, placed after reset, is run by the next step. -/
theorem test_fetch_word_runs :
    tableRows.all (fun r => (stateOf (step (State.reset.withFetchWord r.nbits r.pattern))).isSome) = true := by decide +kernel

/-! ## The encoder, with the test providers (95_test_vectors.md 2.2 to 2.5) -/

/-- EV-C1 and EV-C2. -/
theorem test_build_control_frame :
    buildControlFrame testProviders [] =
      [0x00, 0x00, 0x00, 0x00, 0xAA, 0x55, 0x42, 0x81, 0x00, 0x00, 0x00, 0x00, 0xBE, 0xBA, 0xD0, 0x32,
       0x00, 0x11, 0x22, 0x33, 0x44, 0x55, 0x66, 0x77, 0x88, 0x99, 0xAA, 0xBB, 0xCC, 0xDD, 0xEE, 0xFF,
       0x89, 0x3E, 0xAE, 0xDE, 0xFF] ∧
    buildControlFrame testProviders [0x41] = evC2 := by decide +kernel

/-- EV-C3. -/
theorem test_build_control_frame_300 :
    buildControlFrame testProviders (counting 0 300) =
      [0x00, 0x00, 0x00, 0x00, 0xAA, 0x55, 0x42, 0x81, 0x2C, 0x01, 0x00, 0x00, 0x9A, 0x30, 0x2A, 0x33,
       0x5E, 0x6F, 0x80, 0x91, 0xA2, 0xB3, 0xC4, 0xD5, 0xE6, 0xF7, 0x08, 0x19, 0x2A, 0x3B, 0x4C, 0x5D,
       0xD3, 0x1B, 0xAE, 0xDE, 0xFF] := by decide +kernel

/-- EV-D2 and EV-D3. -/
theorem test_build_data_frame :
    buildDataFrame testProviders (counting 256 44) 1 = evD2 ∧
    buildDataFrame testProviders [0x41] 0xFFFF = evD3 := by decide +kernel

/-- EV-D1 and EV-D4: the stored hash, and a byte of each lane. -/
theorem test_build_data_frame_full :
    slice (buildDataFrame testProviders (rep 256 0) 0) 266 271 = [0xF0, 0xBE, 0xAD, 0xDE, 0xFF] ∧
    slice (buildDataFrame testProviders (rep 256 0) 0) 14 23 = [0x55, 0, 0, 0, 0, 0, 0, 0, 0xAA] ∧
    slice (buildDataFrame testProviders (counting 0 256) 0) 256 271 =
      [0xF6, 0xF7, 0xF8, 0xF9, 0xFA, 0xFB, 0x56, 0xFD, 0xFE, 0xFF, 0x70, 0x92, 0x04, 0xDF, 0xFF] := by decide +kernel

/-- HV-4: the hash of the frame as sent is another one. -/
theorem test_hash_is_over_unstriped_bytes :
    testProviders.hash32 (slice evD2 7 266) seedHeader = 0xDF24F216 ∧
    testProviders.hash32 (slice (stripe evD2) 7 266) seedHeader = 0xDF2CD7C6 := by decide +kernel

/-- The table of 2.4, row by row. -/
theorem test_stripe_lanes :
    stripeByte 271 6 0x42 = 0x42 ∧ stripeByte 271 7 0x01 = 0x01 ∧ stripeByte 271 8 0xFF = 0xFF ∧
    stripeByte 271 14 0x00 = 0x55 ∧ stripeByte 271 22 0xFF = 0x55 ∧ stripeByte 271 254 0xAA = 0xFF ∧
    stripeByte 271 262 0x55 = 0xFF ∧ stripeByte 271 265 0x12 = 0x12 ∧ stripeByte 271 270 0xFF = 0xFF := by decide

/-- The STRIPE row run by itself: EV-D3 un-striped has `FF` at the striped positions. -/
theorem test_stripe_row :
    result (exec (.stripe evD3) State.reset) =
      some ([0x00, 0x00, 0x00, 0x00, 0xAA, 0x55, 0x42, 0x01, 0xFF, 0xFF, 0x41] ++ rep 255 0xFF ++
        [0x73, 0xBD, 0x30, 0xDF, 0xFF]) := by decide +kernel

/-- PAD: 44 bytes and 212 bytes of `FF` (S-7); no empty chunk (2.5). -/
theorem test_pad_row :
    result (exec (.pad (counting 256 44)) State.reset) = some (counting 0 44 ++ rep 212 0xFF) ∧
    result (exec (.pad []) State.reset) = none := by decide +kernel

/-- 2.5: the three calls outside the precondition. -/
theorem test_build_data_frame_precondition :
    faultOf (exec (.buildDataFrame [] 0) State.reset) = some .encoderPrecondition ∧
    faultOf (exec (.buildDataFrame (rep 257 0) 0) State.reset) = some .encoderPrecondition ∧
    faultOf (exec (.buildDataFrame [0x41] 65536) State.reset) = some .encoderPrecondition := by decide +kernel

/-- A frame row run by itself lays out the bytes it was read from. -/
theorem test_frame_rows :
    result (exec (.controlFrame (controlFieldsOf evC2)) State.reset) = some evC2 ∧
    result (exec (.dataFrame (dataFieldsOf evD2)) State.reset) = some evD2 := by decide +kernel

/-- The table of 2.1. -/
theorem test_block_count :
    [0, 1, 255, 256, 257, 300, 512, 1000, 16777215, 16777216, 16777217, 4294967295].map blocksOf =
      [0, 1, 1, 1, 2, 2, 2, 4, 65536, 65536, 65537, 16777216] ∧
    [chunkLength 300 0, chunkLength 300 1, chunkLength 1000 3, chunkLength 257 1, chunkLength 16777216 65535] =
      [256, 44, 232, 1, 256] := by decide +kernel

/-! ## Single events (95_test_vectors.md 4.1) -/

/-- Q-1, Q-2 and Q-3. -/
theorem test_start :
    view (step (onCtl 0x010000012C 300 State.reset)) = some ⟨.sending, true, 0, 300, 0, [0x1000000001]⟩ ∧
    view (step (onCtl 0x0100000005 5 (at' .sending true 0 300))) = some ⟨.sending, true, 0, 300, 0, []⟩ ∧
    stateOf (step (onCtl 0x010000000A 10 (at' .idle true 2 1000))) = some (onCtl 0x010000000A 10 (at' .idle true 2 1000)) := by
  decide +kernel

/-- Q-4 and Q-5. -/
theorem test_start_range :
    view (step (onCtl 0x0101000001 16777217 State.reset)) = some ⟨.idle, false, 0, 0, 2, [0x1200000002]⟩ ∧
    view (step (onCtl 0x0101000000 16777216 State.reset)) =
      some ⟨.sending, true, 0, 16777216, 0, [0x1000000001]⟩ := by decide +kernel

/-- Q-8 and Q-14. -/
theorem test_stop :
    view (step (onCtl 0x0200000000 0 (at' .sending true 2 1000))) = some ⟨.idle, true, 2, 1000, 0, []⟩ ∧
    view (step (onCtl 0x0200000000 0 (at' .idle false 4 300))) = some ⟨.idle, false, 4, 300, 0, []⟩ := by decide +kernel

/-- Q-6, Q-7 and Q-9. -/
theorem test_complete :
    view (step (onCmp 0x0300000002 (at' .sending true 1 300))) = some ⟨.sending, true, 2, 300, 0, [0x1000000003]⟩ ∧
    view (step (onCmp 0x0300000004 (at' .sending true 3 300))) = some ⟨.idle, false, 4, 300, 0, [0x1100000004]⟩ ∧
    view (step (onCmp 0x0300000003 (at' .idle true 2 1000))) = some ⟨.idle, false, 2, 1000, 0, []⟩ := by decide +kernel

/-- Q-10, Q-11 and Q-12. -/
theorem test_complete_errors :
    view (step (onCmp 0x0300000005 (at' .idle false 4 300))) = some ⟨.idle, false, 4, 300, 4, [0x1200000004]⟩ ∧
    view (step (onCmp 0x0300000007 (at' .sending true 0 300))) = some ⟨.idle, false, 0, 300, 3, [0x1200000003]⟩ ∧
    view (step (onCmp 0x0300000009 (at' .idle true 2 1000))) = some ⟨.idle, false, 2, 1000, 3, [0x1200000003]⟩ := by
  decide +kernel

/-- Q-13. -/
theorem test_load_fail :
    view (step (onCtl 0x0400000000 0 (at' .sending true 2 1000))) =
      some ⟨.sending, true, 2, 1000, 1, [0x1200000001]⟩ := by decide +kernel

/-- Q-15 and Q-16. -/
theorem test_reserved_words :
    refusalOf (step (onCmp 0x0500000000 State.reset)) = some (.undecodable (.reservedCode 5)) ∧
    refusalOf (step (onCtl 0x0200000001 0 State.reset)) = some (.undecodable (.reservedArgument 2 1)) := by decide +kernel

/-- Q-17 and Q-18. -/
theorem test_step_loop :
    view (step (onCmp 0x0300000004 { at' .sending true 3 300 with endPolicy := .loop })) =
      some ⟨.sending, true, 2, 300, 0, [0x1000000003]⟩ ∧
    view (step (onCmp 0x0300000002 { at' .sending true 1 0 with endPolicy := .loop })) =
      some ⟨.idle, false, 2, 0, 0, [0x1100000002]⟩ := by decide +kernel

/-- STEP run by itself: the second control frame, the last block of P2, an index past the end (U15). -/
theorem test_step_row :
    view (exec (.step 1) (at' .sending false 0 300)) = some ⟨.sending, true, 1, 300, 0, [0x1000000002]⟩ ∧
    view (exec (.step 3) (at' .sending false 2 300)) = some ⟨.sending, true, 3, 300, 0, [0x1000000004]⟩ ∧
    faultOf (exec (.step 5) (at' .sending false 4 300)) = some .stepPastEnd ∧
    view (exec (.step 5) (at' .idle false 4 300)) = some ⟨.idle, false, 4, 300, 0, []⟩ := by
  decide +kernel

/-- The output rows run by themselves: the effects of R123, R124 and R130. -/
theorem test_output_rows :
    view (exec (.transmit 4) { at' .sending false 2 300 with work := evD2 }) =
      some ⟨.sending, true, 3, 300, 0, [0x1000000004]⟩ ∧
    view (exec (.done 4) (at' .sending false 3 300)) = some ⟨.idle, false, 4, 300, 0, [0x1100000004]⟩ ∧
    view (exec (.error 2) State.reset) = some ⟨.idle, false, 0, 0, 2, [0x1200000002]⟩ ∧
    faultOf (exec (.error 5) State.reset) = some .reservedErrorCode ∧
    faultOf (exec (.transmit 4) State.reset) = some .noFrame := by decide +kernel

/-- The channels: a COMPLETE on the control channel and an output word on an input channel are refused (R105, R70). -/
theorem test_wrong_channel :
    refusalOf (step (onCtl 0x0300000001 0 State.reset)) = some .wrongChannel ∧
    refusalOf (step (onCmp 0x1100000004 State.reset)) = some .outputCode := by decide +kernel

/-- P4: the COMPLETE passes the held START, which then runs. -/
theorem test_held_start_then_runs :
    view (step (onCmp 0x0300000002 (onCtl 0x0100000001 1 (at' .idle true 1 300)))) = some ⟨.idle, false, 1, 300, 0, []⟩ ∧
    view (step (onCtl 0x0100000001 1 (at' .idle false 1 300))) = some ⟨.sending, true, 0, 1, 0, [0x1000000001]⟩ := by
  decide +kernel

/-- The Host's write is read back and keeps the canonical form; writing what an unlisted byte reads as removes it. -/
theorem test_memory_write :
    ((Memory.mk 4 []).write 2 7).read 2 = some 7 ∧ (((Memory.mk 4 []).write 2 7).write 2 0) = Memory.mk 4 [] ∧
    ((Memory.mk 4 []).write 4 7) = Memory.mk 4 [] ∧ (Memory.mk 4 []).read 4 = none := by decide +kernel

/-! ## Witnesses: a concrete state and operands that meet the hypotheses of each statement, each clause at a boundary -/

/-- Mid-session: the data frame of a one-byte buffer is in flight at index 2. -/
def mid : State :=
  { at' .sending true 2 1 with src := Memory.ofBytes [0x41], playing := [⟨evD3, 3⟩] }

/-- The same, with the frame finished and its echo waiting. -/
def midDone : State := { mid with playing := [], completion := [0x0300000003] }

/-- Stopped with a frame in flight. -/
def stopped : State := { mid with status := .idle }

theorem test_witness_DecodeOfEncode :
    (Instr.start 300).wellFormed = true ∧ encode (.start 300) = some (.event 0x010000012C) ∧
    (Instr.controlFrame (controlFieldsOf evC2)).wellFormed = true ∧
    encode (.controlFrame (controlFieldsOf evC2)) = some (.frame evC2) ∧
    (Instr.dataFrame (dataFieldsOf evD2)).wellFormed = true ∧
    encode (.dataFrame (dataFieldsOf evD2)) = some (.frame evD2) := by decide +kernel

theorem test_witness_EncodeOfDecode :
    decode (.event 0x04_0000_0000) = .ok .loadFail ∧ decode (.frame evD2) = .ok (.dataFrame (dataFieldsOf evD2)) := by
  decide +kernel

theorem test_witness_DecoderFollowsTheOpcodeTable :
    decode (.event 0x03FFFFFFFF) = .ok (.complete 0xFFFFFFFF) ∧
    (⟨40, 0x0300000000, 0xFF00000000⟩ : TableRow) ∈ tableRows ∧
    (⟨40, 0x0300000000, 0xFF00000000⟩ : TableRow).selects (0x03FFFFFFFF : EventWord).toNat = true ∧
    (⟨40, 0x0200000000, 0xFFFFFFFFFF⟩ : TableRow).selects (0x0200000000 : EventWord).toNat = true := by decide

/-- Codes 0x00, 0x05 and 0xFF, STOP and LOAD_FAIL with an argument, on either channel. -/
theorem test_witness_ReservedInputIsRefused :
    ¬(State.reset.status = .sending ∧ State.reset.inFlight = false) ∧
    [0x0000000000, 0x0500000000, 0xFF00000000, 0x0200000001, 0x0480000000].map
      (fun w => (fetch (onCtl w 0 State.reset)).map fun f => (f.source, f.item)) =
      [0x0000000000, 0x0500000000, 0xFF00000000, 0x0200000001, 0x0480000000].map
        (fun w => some (Source.control, Transaction.event w)) ∧
    (fetch (onCmp 0x0500000000 State.reset)).map (fun f => (f.source, f.item)) =
      some (Source.completion, .event 0x0500000000) ∧
    eventCode 0x0000000000 = 0x00 ∧ 0x05 ≤ eventCode 0x0500000000 ∧ 0x05 ≤ eventCode 0xFF00000000 ∧
    eventCode 0x0200000001 = 0x02 ∧ eventArg 0x0200000001 ≠ 0 ∧
    eventCode 0x0480000000 = 0x04 ∧ eventArg 0x0480000000 ≠ 0 := by decide +kernel

theorem test_witness_MalformedStartIsRefused : State.reset.presented.len ≠ (1 : Word32).toNat := by decide

/-- ControlFrameLayout, ControlFrameChecks. -/
theorem test_witness_ControlFrame : ([] : List Byte).length < 2 ^ 32 := by decide

/-- Providers that differ only where the frame does not ask them. -/
theorem test_witness_ControlFrameProviderCalls :
    let F := buildControlFrame testProviders []
    let H' : Providers := ⟨fun d seed => if d = [0] then 0 else testProviders.hash32 d seed, testProviders.digest128⟩
    H'.hash32 [] 0x32D0BABE = testProviders.hash32 [] 0x32D0BABE ∧
    H'.hash32 (slice F 12 32) 0xDEADBEEF = testProviders.hash32 (slice F 12 32) 0xDEADBEEF ∧
    H'.hash32 [0] 0 ≠ testProviders.hash32 [0] 1 := by decide +kernel

/-- Chunks of 1 and of 256 bytes: DataFrameLayout, DataFrameProviderCall, DataFrameFields; and a pair of providers that
agrees with another where the frame asks, and differs elsewhere. -/
theorem test_witness_DataFrame :
    0 < [(0x41 : Byte)].length ∧ [(0x41 : Byte)].length ≤ 256 ∧ 0 < (rep 256 0).length ∧ (rep 256 0).length ≤ 256 ∧
    ⟨fun d seed => if d = [0] then 0 else testProviders.hash32 d seed, testProviders.digest128⟩ ≠ testProviders ∧
    (let input := [(0x01 : Byte)] ++ le 2 0 ++ ([0x41] ++ rep 255 0xFF)
     (if input = [0] then (0 : Word32) else testProviders.hash32 input 0xDEADBEEF) =
       testProviders.hash32 input 0xDEADBEEF) := by
  refine ⟨by decide, by decide, by decide +kernel, by decide +kernel, ?_, by decide +kernel⟩
  intro h
  have := congrFun (congrFun (congrArg Providers.hash32 h) [0]) 1
  revert this
  decide +kernel

/-- Positions 14 and 262 of the mask, and 15 outside it. -/
theorem test_witness_StripeIsLanewiseXor :
    evD2.length = 271 ∧ evD2[14]? = some 0x51 ∧ evD2[262]? = some 0x55 ∧ evD2[15]? = some 0x05 := by decide +kernel

/-- One chunk byte: the first padding byte is at 11; 240 bytes: the last period is the first that is all padding. -/
theorem test_witness_PaddingBreaksRunsOfOnes :
    10 + [(0x41 : Byte)].length ≤ 14 ∧ 14 % 16 = 14 ∧ 10 + [(0x41 : Byte)].length ≤ 262 ∧ 262 < 266 ∧ 262 % 16 = 6 ∧
    0 < (rep 240 0).length ∧ (rep 240 0).length ≤ 256 ∧ 15 < 16 ∧ (rep 240 0).length ≤ 16 * 15 ∧
    (rep 5 0xAA)[4]? = some 0xAA ∧ (rep 13 0x55)[12]? = some 0x55 := by decide +kernel

theorem test_witness_HashCoverageMap : evC2.length = 37 ∧ evD2.length = 271 := by decide +kernel

/-- Block 0 of 300 bytes is not the final one; block 1 is, and so is the full block 0 of 256. -/
theorem test_witness_ChunkLengths :
    0 < blocksOf 300 ∧ 0 + 1 < blocksOf 300 ∧ 1 < blocksOf 300 ∧ 1 + 1 = blocksOf 300 ∧ 0 + 1 = blocksOf 256 := by decide

theorem test_witness_FrameRows :
    (controlFieldsOf evC2).contentDigest.length = 16 ∧ (dataFieldsOf evD2).payload.length = 256 := by decide +kernel

theorem test_witness_BuildControlFrameCompletes :
    ([] : List Byte).length < 2 ^ 32 ∧ 2 ^ 32 ≤ (List.replicate (2 ^ 32) (0 : Byte)).length := by
  refine ⟨by decide, ?_⟩
  rw [List.length_replicate]

/-- BuildDataFrameCompletes and PadCompletes: 1 and 256 bytes with block 65535; no byte, 257 bytes, block 65536. -/
theorem test_witness_BuildDataFrameCompletes :
    0 < [(0x41 : Byte)].length ∧ [(0x41 : Byte)].length ≤ 1 ∧ 1 < 256 ∧ (rep 256 0).length ≤ 256 ∧ 65535 < 65536 ∧
    ([] : List Byte).length = 0 ∧ 256 < (rep 257 0).length := by decide +kernel

theorem test_witness_StripeRowCompletes :
    evD2.length = 271 ∧ evD2[8]? = some 1 ∧ evD2[14]? = some 0x51 ∧ evD2[22]? = some 0xA6 ∧ evD2[265]? = some 0xFF ∧
    evD2[270]? = some 0xFF ∧ evC2.length ≠ 271 := by decide +kernel

theorem test_witness_TransmitDispatchesTheFrame :
    isFrame { mid with work := evD2 }.work = true ∧ (1 : Word32) ≠ 0 ∧ (0xFFFFFFFF : Word32) ≠ 0 ∧
    isFrame mid.work = false := by decide +kernel

theorem test_witness_ErrorRaisesItsCode :
    (0 : Word32).toNat ≤ 4 ∧ (4 : Word32).toNat ≤ 4 ∧ 4 < (5 : Word32).toNat ∧ 4 < (8 : Word32).toNat := by decide

/-- An empty buffer, and one of MAX_LEN bytes. -/
theorem test_witness_StartOpensASession :
    State.reset.status = .idle ∧ State.reset.inFlight = false ∧ State.reset.presented.len = (0 : Word32).toNat ∧
    { State.reset with presented := ⟨16777216, []⟩ }.presented.len = (16777216 : Word32).toNat ∧
    (16777216 : Word32).toNat ≤ 16777216 := by decide

/-- With an empty completion channel, and chosen before a waiting COMPLETE. -/
theorem test_witness_StartWhileSendingIsNoOp :
    let s := onCtl 0x0100000005 5 mid
    let r := { mid with presented := ⟨5, []⟩ }
    let u := { s with playing := [], completion := [0x0300000003], schedule := [.control] }
    s.status = .sending ∧ s.inFlight = true ∧ fetch s = some ⟨.control, .event 0x0100000005, r⟩ ∧
    decode (.event 0x0100000005) = .ok (.start 5) ∧ r.presented.len = (5 : Word32).toNat ∧
    (fetch u).map Fetched.source = some .control := by decide +kernel

/-- Without an echo, and with the right one or a wrong one. -/
theorem test_witness_StartIsHeldWhileAFrameIsInFlight :
    let s := onCtl 0x0100000001 1 stopped
    s.status = .idle ∧ s.inFlight = true ∧ s.port = none ∧ s.control = [⟨0x0100000001, ⟨1, []⟩⟩] ∧
    decode (.event 0x0100000001) = .ok (.start 1) ∧ (Memory.mk 1 []).len = (1 : Word32).toNat ∧ s.completion = [] ∧
    { s with completion := [0x0300000003] }.completion = [eventWord 0x03 3] ∧
    { s with completion := [0x0300000009] }.completion = [eventWord 0x03 9] := by decide

theorem test_witness_StartTooLongIsRejected :
    let s := { State.reset with presented := ⟨16777217, []⟩ }
    s.status = .idle ∧ s.inFlight = false ∧ s.presented.len = (16777217 : Word32).toNat ∧
    16777216 < (16777217 : Word32).toNat := by decide

theorem test_witness_CompleteChecksTheEcho :
    State.reset.inFlight = false ∧ mid.inFlight = true ∧ (3 : Word32).toNat = mid.frameIndex.toNat + 1 ∧
    (2 : Word32).toNat ≠ mid.frameIndex.toNat + 1 ∧
    (0 : Word32).toNat ≠ (at' .sending true 0xFFFFFFFF 1).frameIndex.toNat + 1 := by decide

/-- The second control frame, block 0, the end under STOP, the wrap of LOOP, and the first index past the end. -/
theorem test_witness_CompleteAdvancesTheSession :
    [((1 : Word32), at' .sending true 0 1), (2, at' .sending true 1 1), (3, mid),
      (3, { mid with endPolicy := .loop }), (2, { at' .sending true 1 0 with endPolicy := .loop })].all
      (fun p => p.2.status == .sending && p.2.inFlight && p.1.toNat == p.2.frameIndex.toNat + 1 &&
        p.2.src.len == p.2.srcLen.toNat && p.2.srcLen.toNat ≤ 16777216) = true ∧
    3 = 2 + mid.blocks ∧ 1 ≤ mid.blocks ∧ (3 : Word32).toNat ≤ 2 + mid.blocks ∧
    (let s := { mid with frameIndex := 3 }
     (4 : Word32).toNat = s.frameIndex.toNat + 1 ∧ 2 + s.blocks < (4 : Word32).toNat) := by decide

theorem test_witness_StepWhileIdleIsCancelled : stopped.status = .idle := by decide

theorem test_witness_StepSendsTheControlFrameTwice :
    mid.status = .sending ∧ mid.src.len = mid.srcLen.toNat := by decide

/-- The first and the last block of two. -/
theorem test_witness_StepSendsTheBlock :
    let s := at' .sending false 1 300
    s.status = .sending ∧ s.src.len = s.srcLen.toNat ∧ s.srcLen.toNat ≤ 16777216 ∧ 2 ≤ (2 : Word32).toNat ∧
    (3 : Word32).toNat < 2 + s.blocks ∧ (3 : Word32).toNat - 2 + 1 = s.blocks := by decide

/-- Under STOP with a block, and with none; the first index past the end. -/
theorem test_witness_StepEndsTheSequence :
    mid.status = .sending ∧ (3 : Word32).toNat = 2 + mid.blocks ∧ mid.endPolicy = .stop ∧
    (at' .sending false 1 0).blocks = 0 ∧ (2 : Word32).toNat = 2 + (at' .sending false 1 0).blocks ∧
    2 + mid.blocks < (4 : Word32).toNat := by decide

theorem test_witness_StepLoopsToBlockZero :
    let s := { mid with endPolicy := .loop }
    let u := { at' .sending true 1 0 with endPolicy := .loop }
    s.status = .sending ∧ s.src.len = s.srcLen.toNat ∧ s.endPolicy = .loop ∧ 1 ≤ s.blocks ∧
    (3 : Word32).toNat = 2 + s.blocks ∧
    u.status = .sending ∧ u.src.len = u.srcLen.toNat ∧ u.endPolicy = .loop ∧ u.blocks = 0 ∧
    (2 : Word32).toNat = 2 + u.blocks := by decide

/-- Events that answer a next state: an accepted START changes SRC, a COMPLETE does not. For the statements over all
instructions: NoInstructionWritesTheSource, RegistersHaveTheirWriters. -/
theorem test_witness_AllInstructions :
    (∃ t, exec (.start 0) State.reset = .next t ∧ t.status ≠ State.reset.status) ∧
    (∃ t, exec (.complete 3) mid = .next t ∧ t.frameIndex ≠ mid.frameIndex ∧ t.inFlight ≠ mid.inFlight) ∧
    (∃ t, exec (.step 2) { mid with endPolicy := .loop, frameIndex := 1 } = .next t ∧
      t.frameIndex ≠ 1 ∧ t.outputs ≠ []) ∧
    (∃ t, exec (.complete 3) { mid with endPolicy := .loop } = .next t ∧ t.playCount ≠ mid.playCount) :=
  ⟨⟨_, rfl, by decide⟩, ⟨_, rfl, by decide, by decide⟩, ⟨_, rfl, by decide, by decide⟩, ⟨_, rfl, by decide⟩⟩

/-- With code 3, and with another. -/
theorem test_witness_ErrorsArePrecise :
    (∃ t, exec (.complete 9) mid = .next t ∧ t.outputs = mid.outputs ++ [.error 3]) ∧
    (∃ t, exec .loadFail mid = .next t ∧ t.outputs = mid.outputs ++ [.error 1]) :=
  ⟨⟨_, rfl, by decide⟩, ⟨_, rfl, by decide⟩⟩

theorem test_witness_OnlyTheTwoFormatsAreSent :
    ∃ t, exec (.transmit 3) { mid with work := evC2 } = .next t ∧ .transmit evC2 3 ∈ t.outputs ∧
      .transmit evC2 3 ∉ mid.outputs := ⟨_, rfl, by decide +kernel, by decide⟩

/-- Another buffer of the same length, other error and pass counts. -/
theorem test_witness_TransitionsIgnoreContents :
    let s' := { mid with src := ⟨1, []⟩, lastError := 4, playCount := 7 }
    s'.status = mid.status ∧ s'.inFlight = mid.inFlight ∧ s'.frameIndex = mid.frameIndex ∧ s'.srcLen = mid.srcLen ∧
    s'.endPolicy = mid.endPolicy ∧ s'.src.len = mid.src.len ∧ s'.presented.len = mid.presented.len ∧
    s'.src ≠ mid.src ∧ ∃ t, exec (.complete 3) mid = .next t :=
  ⟨rfl, rfl, rfl, rfl, rfl, rfl, rfl, by decide, _, rfl⟩

theorem test_witness_IdleCoreNeverReadsTheSource :
    stopped.status = .idle ∧ State.reset.status = .idle ∧ State.reset.inFlight = false ∧
    State.reset.presented.len = (0 : Word32).toNat ∧ (0 : Word32).toNat ≤ 16777216 := by decide

theorem test_witness_CanonicalMemoriesAreEqual :
    (Memory.ofBytes [0, 7]).wf = true ∧ ((Memory.mk 2 []).write 1 7).wf = true ∧
    (Memory.ofBytes [0, 7]).len = ((Memory.mk 2 []).write 1 7).len := by decide

theorem test_witness_StepRunsTheDecodedInstruction :
    ¬(midDone.status = .sending ∧ midDone.inFlight = false) ∧
    fetch midDone = some ⟨.completion, .event 0x0300000003, { midDone with completion := [] }⟩ ∧
    decode (.event 0x0300000003) = .ok (.complete 3) ∧ Source.completion.carries (.complete 3) = true := by
  decide +kernel

/-- One head, a held head beside a COMPLETE, both heads, none. -/
theorem test_witness_TheCoreTakesAnEnabledHead :
    let c : ControlItem := ⟨0x0200000000, ⟨0, []⟩⟩
    let h : ControlItem := ⟨0x0100000001, ⟨1, []⟩⟩
    mid.port = none ∧ held mid c = false ∧ held stopped h = true ∧ mid.completion = [] ∧
    { mid with control := [c] }.control = [c] ∧ midDone.completion = [0x0300000003] ∧ midDone.control = [] ∧
    { midDone with control := [c] }.completion = [0x0300000003] := by decide

theorem test_witness_AStalledDriverStallsTheCore :
    mid.inFlight = true ∧ mid.port = none ∧ mid.completion = [] ∧ mid.control = [] ∧ stopped.status = .idle ∧
    (onCtl 0x0100000001 1 stopped).control = [⟨0x0100000001, ⟨1, []⟩⟩] ∧
    decode (.event 0x0100000001) = .ok (.start 1) := by decide

theorem test_witness_ResetDuringPlayback :
    mid.playing = [⟨evD3, 3⟩] ∧ mid.completion = [] ∧ mid.control = [] ∧ mid.port = none := by decide +kernel

/-- EveryStepKeepsTheInvariant, NoStepFaultsUnderTheInvariant, AnHonestDriverKeepsTheHandshake: states of the
invariant in the middle of a session. -/
theorem test_witness_Inv : Inv midDone ∧ Inv mid where
  left := by constructor <;> decide +kernel
  right := by constructor <;> decide +kernel

/-- The invariant's states step on: the end of the session. -/
theorem test_witness_EveryStepKeepsTheInvariant : ∃ t, step midDone = .next t ∧ t.status = .idle := ⟨_, rfl, by decide⟩

theorem test_witness_AnHonestDriverKeepsTheHandshake :
    Handshake midDone ∧ Handshake mid ∧ (driverFinish mid).isSome = true ∧ (∃ t, step midDone = .next t) := by
  refine ⟨?_, ?_, by decide +kernel, _, rfl⟩
  · exact ⟨3, by decide, .inr ⟨rfl, by decide⟩⟩
  · exact ⟨3, by decide, .inl ⟨evD3, rfl, rfl⟩⟩

/-- A session of no byte, and one of MAX_LEN bytes. -/
theorem test_witness_SessionSendsEveryBlockInOrder :
    let s := onCtl (eventWord 0x01 (BitVec.ofNat 32 16777216)) 16777216 State.reset
    s.status = .idle ∧ s.inFlight = false ∧ s.endPolicy = .stop ∧ s.port = none ∧ s.playing = [] ∧ s.completion = [] ∧
    Memory.empty.len ≤ 16777216 ∧ (Memory.mk 16777216 []).len ≤ 16777216 ∧
    s.control = [⟨eventWord 0x01 (BitVec.ofNat 32 16777216), ⟨16777216, []⟩⟩] ∧
    (onCtl 0x0100000000 0 State.reset).control = [⟨eventWord 0x01 (BitVec.ofNat 32 0), Memory.empty⟩] := by
  decide +kernel

/-- A pass of one block. -/
theorem test_witness_LoopPassReturnsToBlockZero :
    let s := { mid with endPolicy := .loop }
    s.status = .sending ∧ s.inFlight = true ∧ s.endPolicy = .loop ∧ s.port = none ∧ s.frameIndex = 2 ∧
    s.playing = [⟨evD3, 3⟩] ∧ s.completion = [] ∧ s.control = [] ∧ s.src.len = s.srcLen.toNat ∧
    s.srcLen.toNat ≤ 16777216 ∧ 1 ≤ s.blocks := by decide +kernel

theorem test_witness_StopCancelsTheSession :
    let s := onCtl (eventWord 0x02 0) 0 mid
    s.status = .sending ∧ s.inFlight = true ∧ s.port = none ∧ s.control = [⟨eventWord 0x02 0, ⟨0, []⟩⟩] ∧
    s.completion = [] ∧ s.playing = [⟨evD3, 3⟩] ∧ (3 : Word32).toNat = s.frameIndex.toNat + 1 := by decide +kernel

end Sys2Proof.Tests
end

section
/-! What reset leaves (10_state.md R35, 70_reset_and_hazards.md R146). -/

namespace Sys2Proof.Machine

/-- No buffer is owned: nothing can be read of the empty byte space. -/
@[simp] theorem Memory.empty_read (a : Nat) : Memory.empty.read a = none :=
  if_neg (Nat.not_lt_zero a)

@[simp] theorem Status.bit_idle : Status.idle.bit = 0 := rfl

/-- The register bit of `inFlight` is 0 exactly while nothing is in flight. -/
theorem State.inFlightBit_eq_zero_iff (s : State) : s.inFlightBit = 0 ↔ s.inFlight = false := by
  cases h : s.inFlight <;> simp [State.inFlightBit, h]

/-- A reset of the machine that has just been reset changes nothing. -/
@[simp] theorem resetCore_resetUnder (p : EndPolicy) :
    resetCore (State.resetUnder p) = State.resetUnder p := rfl

@[simp] theorem State.resetUnder_outputs (p : EndPolicy) : (State.resetUnder p).outputs = [] := rfl

/-- Settles O52: the register and environment clauses are the field laws of `resetCore`; the two that are not single
fields, the bit of `inFlight` and the unowned SRC, are named. -/
theorem resetValues : Obligations.ResetValues := by
  refine ⟨⟨.stop, rfl⟩, fun p => ⟨resetCore_resetUnder p, State.resetUnder_outputs p⟩, fun s => ?_⟩
  have inFlightBit_zero : (resetCore s).inFlightBit = 0 :=
    (State.inFlightBit_eq_zero_iff _).mpr (resetCore_inFlight s)
  have src_unowned (a : Nat) : (resetCore s).src.read a = none := by
    rw [resetCore_src, Memory.empty_read]
  exact ⟨Status.bit_idle, resetCore_frameIndex s, resetCore_playCount s, resetCore_srcLen s, inFlightBit_zero,
    resetCore_lastError s, Memory.empty_len, src_unowned, resetCore_outputs s, resetCore_playing s,
    resetCore_control s, resetCore_completion s, resetCore_loading s⟩

end Sys2Proof.Machine
end

section
/-! What the decoder reads from an event word, and the words the core does not take (30_encoding.md R68 to R70). -/

namespace Sys2Proof.Machine

/-- No bit of an event word is dropped: its instruction encodes as that word. -/
theorem encode_of_decodeEvent {w : EventWord} {i : Instr} (h : decodeEvent w = .ok i) :
    encode i = some (.event w) := by
  have hw := eventWord_eta w
  simp only [decodeEvent] at h
  split at h
  · next hc => cases h; rw [encode, ← hc, hw]
  split at h
  · next hc =>
    split at h
    · next ha => cases h; rw [encode, ← hc, ← ha, hw]
    · cases h
  split at h
  · next hc => cases h; rw [encode, ← hc, hw]
  split at h
  · next hc =>
    split at h
    · next ha => cases h; rw [encode, ← hc, ← ha, hw]
    · cases h
  split at h
  · next hc => cases h; rw [encode, ← hc, hw]
  split at h
  · next hc => cases h; rw [encode, ← hc, hw]
  split at h
  · next hc => cases h; rw [encode, ← hc, hw]
  · cases h

/-- The words R70 reserves on the two input channels. -/
def ReservedInput (w : EventWord) : Prop :=
  eventCode w = 0x00 ∨ 0x05 ≤ eventCode w ∨ ((eventCode w = 0x02 ∨ eventCode w = 0x04) ∧ eventArg w ≠ 0)

/-- An input word is not reserved if its code is one of R68 and, where the argument must be 0, it is. -/
theorem not_reservedInput_eventWord {code : Byte} {arg : Word32}
    (hc : code = codeStart ∨ code = codeComplete ∨ (code = codeStop ∨ code = codeLoadFail) ∧ arg = 0) :
    ¬ ReservedInput (eventWord code arg) := by
  unfold ReservedInput
  rw [eventCode_eventWord, eventArg_eventWord]
  obtain rfl | rfl | ⟨rfl | rfl, rfl⟩ := hc
  all_goals simp [codeStart, codeComplete, codeStop, codeLoadFail]

/-- A channel carries input events only (42_sequencer.md R105). -/
theorem channel_carries {src : Source} {i : Instr} (hs : src ≠ .port) (h : src.carries i = true) :
    (∃ L, i = .start L) ∨ (∃ n, i = .complete n) ∨ i = .stop ∨ i = .loadFail := by
  cases src with
  | port => exact absurd rfl hs
  | control =>
    obtain hL | rfl | rfl := control_carries h
    · exact .inl hL
    · exact .inr (.inr (.inl rfl))
    · exact .inr (.inr (.inr rfl))
  | completion => exact .inr (.inl (completion_carries h))

/-- The word of an instruction that an input channel carries is not reserved. -/
theorem not_reservedInput_of_carries {src : Source} {w : EventWord} {i : Instr} (hs : src ≠ .port)
    (hd : decode (.event w) = .ok i) (hc : src.carries i = true) : ¬ ReservedInput w := by
  have he := encode_of_decodeEvent hd
  obtain ⟨L, rfl⟩ | ⟨n, rfl⟩ | rfl | rfl := channel_carries hs hc
  all_goals cases he
  · exact not_reservedInput_eventWord (.inl rfl)
  · exact not_reservedInput_eventWord (.inr (.inl rfl))
  · exact not_reservedInput_eventWord (.inr (.inr ⟨.inl rfl, rfl⟩))
  · exact not_reservedInput_eventWord (.inr (.inr ⟨.inr rfl, rfl⟩))

/-- A reserved word on an input channel has no interpretation. -/
theorem interpret_reservedInput {src : Source} {w : EventWord} (hs : src ≠ .port) (hw : ReservedInput w) :
    ∃ r, interpret src (.event w) = .error r := by
  cases hi : interpret src (.event w) with
  | error r => exact ⟨r, rfl⟩
  | ok i =>
    obtain ⟨hd, hc⟩ := interpret_ok.1 hi
    exact absurd hw (not_reservedInput_of_carries hs hd hc)

/-- A step refuses what it takes and cannot interpret (60_exceptions.md R136). -/
theorem step_refused {s : State} {f : Fetched} {r : Refusal} (hs : ¬(s.status = .sending ∧ s.inFlight = false))
    (hf : fetch s = some f) (hr : interpret f.source f.item = .error r) : step s = .refused r := by
  simp only [step, if_neg hs, hf, hr]

/-- Settles O5: an instruction that a channel carries has a word that is not reserved, because the word is its
encoding; so a reserved word has no interpretation, and the step refuses it. -/
theorem reservedInputIsRefused : Obligations.ReservedInputIsRefused := by
  intro s f w hs hf hsrc hitem hw
  obtain ⟨r, hr⟩ := interpret_reservedInput hsrc hw
  exact ⟨r, step_refused hs hf (hitem ▸ hr)⟩

end Sys2Proof.Machine
end

section
/-! The bytes that are a frame of one of the two formats, and the frames the encoder builds (30_encoding.md R57, R60,
R66). -/

namespace Sys2Proof.Machine

/-- The length and the type byte of a frame: 37 bytes with `0x81`, or 271 bytes with `0x01` (R64). -/
theorem frameLength_eq_some_iff {F : List Byte} {n : Nat} :
    frameLength F = some n ↔ n = ctrlLen ∧ F[7]? = some ctrlVersion ∨ n = dataLen ∧ F[7]? = some dataVersion := by
  have hne : ctrlVersion ≠ dataVersion := by decide
  unfold frameLength
  split
  · next hc => simp [hc, hne, eq_comm]
  · next hc =>
    split
    · next hd => simp [hd, hne.symm, eq_comm (a := n)]
    · next hd => simp [hc, hd]

theorem isFrame_iff {F : List Byte} :
    isFrame F = true ↔ F.take 7 = preamble ∧ F.getLast? = some terminatorByte ∧
      (F.length = ctrlLen ∧ F[7]? = some ctrlVersion ∨ F.length = dataLen ∧ F[7]? = some dataVersion) := by
  simp only [isFrame, Bool.and_eq_true, beq_iff_eq, frameLength_eq_some_iff, and_assoc, and_comm (a := F.getLast? = _)]

/-- Striping leaves the first 8 bytes and the last 5 (40_frame_encoder.md R85). -/
theorem stripe_getElem?_outside {F : List Byte} {q : Nat} (h : q < 8 ∨ F.length ≤ q + 5) : (stripe F)[q]? = F[q]? := by
  rw [stripe_getElem?]
  cases F[q]? with
  | none => rfl
  | some b => exact congrArg some (stripeByte_outside _ _ b h)

theorem stripe_take {F : List Byte} {k : Nat} (hk : k ≤ 8) : (stripe F).take k = F.take k := by
  apply List.ext_getElem?
  intro q
  by_cases hq : q < k
  · rw [List.getElem?_take_of_lt hq, List.getElem?_take_of_lt hq, stripe_getElem?_outside (.inl (by omega))]
  · simp [hq]

theorem stripe_getLast? (F : List Byte) : (stripe F).getLast? = F.getLast? := by
  rw [List.getLast?_eq_getElem?, List.getLast?_eq_getElem?, stripe_length, stripe_getElem?_outside (.inr (by omega))]

theorem isFrame_controlBytes {f : ControlFields} (h : f.wellFormed = true) : isFrame (controlBytes f) = true := by
  obtain ⟨hdigest, hlast⟩ : f.contentDigest.length = 16 ∧ f.terminator = 0xFF := by
    simpa [ControlFields.wellFormed] using h
  refine isFrame_iff.2 ⟨?_, ?_, .inl ⟨?_, controlBytes_type f⟩⟩
  · simp [controlBytes, List.take_append]
  · rw [controlBytes, List.getLast?_concat, hlast, terminatorByte]
  · rw [controlBytes_length, hdigest, ctrlLen]

theorem isFrame_dataBytes {f : DataFields} (h : f.wellFormed = true) : isFrame (dataBytes f) = true := by
  obtain ⟨hpayload, hlast⟩ : f.payload.length = 256 ∧ f.terminator = 0xFF := by
    simpa [DataFields.wellFormed] using h
  refine isFrame_iff.2 ⟨?_, ?_, .inr ⟨?_, dataBytes_type f⟩⟩
  · rw [dataBytes, stripe_take (by decide)]
    simp [assembledBytes, List.take_append]
  · rw [dataBytes, stripe_getLast?, assembledBytes, List.getLast?_concat, hlast, terminatorByte]
  · rw [dataBytes_length, hpayload, dataLen]

theorem controlFieldsFor_wellFormed (H : Providers) (B : List Byte) : (controlFieldsFor H B).wellFormed = true := by
  simp [ControlFields.wellFormed, controlFieldsFor, contentDigest, terminatorByte]

/-- A chunk of at most 256 bytes is padded to a whole payload (40_frame_encoder.md R83). -/
theorem padChunk_length {C : List Byte} (h : C.length ≤ 256) : (padChunk C).length = 256 := by
  simp only [padChunk, chunkSize, List.length_append, rep_length]
  omega

theorem dataFieldsFor_wellFormed (H : Providers) {C : List Byte} (k : BitVec 16) (h : C.length ≤ 256) :
    (dataFieldsFor H C k).wellFormed = true := by
  simp [DataFields.wellFormed, dataFieldsFor, padChunk_length h, terminatorByte]

theorem isFrame_buildControlFrame (H : Providers) (B : List Byte) : isFrame (buildControlFrame H B) = true :=
  isFrame_controlBytes (controlFieldsFor_wellFormed H B)

theorem isFrame_buildDataFrame (H : Providers) {C : List Byte} (k : BitVec 16) (h : C.length ≤ 256) :
    isFrame (buildDataFrame H C k) = true :=
  isFrame_dataBytes (dataFieldsFor_wellFormed H k h)

end Sys2Proof.Machine
end

section
/-! What each instruction adds to the outputs: every TRANSMIT carries a frame of the two formats (30_encoding.md R66). -/

namespace Sys2Proof.Machine

/-- From the outputs `before` to the outputs `after`, every TRANSMIT that is new carries a frame. -/
def AddsOnlyFrames (before after : List Output) : Prop :=
  ∀ F next, .transmit F next ∈ after → .transmit F next ∉ before → isFrame F = true

theorem AddsOnlyFrames.refl (os : List Output) : AddsOnlyFrames os os :=
  fun _ _ hnew hold => absurd hnew hold

theorem addsOnlyFrames_transmit (os : List Output) {F : List Byte} (next : Word32) (hF : isFrame F = true) :
    AddsOnlyFrames os (os ++ [.transmit F next]) := by
  intro G n hnew hold
  obtain ⟨rfl, -⟩ : G = F ∧ n = next := by simpa [hold] using hnew
  exact hF

theorem addsOnlyFrames_done (os : List Output) (endIndex : Word32) : AddsOnlyFrames os (os ++ [.done endIndex]) :=
  fun _ _ hnew hold => absurd hnew (by simpa using hold)

theorem addsOnlyFrames_error (os : List Output) (code : BitVec 3) : AddsOnlyFrames os (os ++ [.error code]) :=
  fun _ _ hnew hold => absurd hnew (by simpa using hold)

theorem controlStep_addsOnlyFrames {index : Nat} {s t : State} (h : controlStep index s = .ok t) :
    AddsOnlyFrames s.outputs t.outputs := by
  obtain ⟨-, rfl⟩ := controlStep_ok.1 h
  exact addsOnlyFrames_transmit _ _ (isFrame_buildControlFrame _ _)

theorem dataStep_addsOnlyFrames {index : Nat} {s t : State} (h : dataStep index s = .ok t) :
    AddsOnlyFrames s.outputs t.outputs := by
  obtain ⟨-, ⟨-, hchunk⟩, -, rfl⟩ := dataStep_ok.1 h
  exact addsOnlyFrames_transmit _ _ (isFrame_buildDataFrame _ _ (by rwa [Memory.bytes_length]))

theorem sequencerStep_addsOnlyFrames {index : Word32} {s t : State} (h : sequencerStep index s = .ok t) :
    AddsOnlyFrames s.outputs t.outputs := by
  obtain ⟨-, hr⟩ | ⟨-, -, hr⟩ | ⟨-, -, -, hr⟩ | ⟨-, -, -, -, hr⟩ | ⟨-, -, -, hr⟩ | ⟨-, -, hr⟩ :=
    sequencerStep_cases index s
  all_goals rw [hr] at h
  · cases h; exact .refl _
  case inr.inl => exact controlStep_addsOnlyFrames h
  case inr.inr.inl => exact dataStep_addsOnlyFrames h
  case inr.inr.inr.inl => simpa using dataStep_addsOnlyFrames h
  case inr.inr.inr.inr.inl => cases h; exact addsOnlyFrames_done _ _
  case inr.inr.inr.inr.inr => cases h

theorem execStart_addsOnlyFrames {L : Word32} {s t : State} (h : execStart L s = .next t) :
    AddsOnlyFrames s.outputs t.outputs := by
  obtain ⟨-, hr⟩ | ⟨-, -, hr⟩ | ⟨-, -, -, hr⟩ | ⟨-, -, -, -, hr⟩ | ⟨-, -, -, -, hr⟩ := execStart_cases L s
  all_goals rw [hr] at h
  · cases h
  case inr.inl => cases h; exact .refl _
  case inr.inr.inl => cases h; exact .refl _
  case inr.inr.inr.inl => cases h; exact addsOnlyFrames_error _ _
  case inr.inr.inr.inr => simpa using controlStep_addsOnlyFrames (outcomeOf_next.1 h)

theorem execComplete_addsOnlyFrames {n : Word32} {s t : State} (h : execComplete n s = .next t) :
    AddsOnlyFrames s.outputs t.outputs := by
  obtain ⟨-, hr⟩ | ⟨-, -, hr⟩ | ⟨-, -, hr⟩ := execComplete_cases n s
  all_goals rw [hr] at h
  · cases h; exact addsOnlyFrames_error _ _
  case inr.inl => cases h; exact addsOnlyFrames_error _ _
  case inr.inr => simpa using sequencerStep_addsOnlyFrames (outcomeOf_next.1 h)

/-- TRANSMIT run by itself checks the bytes it finds in the frame space. -/
theorem execTransmit_addsOnlyFrames {next : Word32} {s t : State} (h : execTransmit next s = .next t) :
    AddsOnlyFrames s.outputs t.outputs := by
  unfold execTransmit at h
  split at h
  · next hF => split at h <;> cases h <;> exact addsOnlyFrames_transmit _ _ hF
  · cases h

theorem execError_addsOnlyFrames {arg : Word32} {s t : State} (h : execError arg s = .next t) :
    AddsOnlyFrames s.outputs t.outputs := by
  unfold execError at h
  split at h
  · cases h; exact addsOnlyFrames_error _ _
  · cases h

/-- An operation whose result is left in the frame space emits nothing. -/
theorem leaveResult_addsOnlyFrames {r : Except Fault (List Byte)} {s t : State} (h : leaveResult r s = .next t) :
    AddsOnlyFrames s.outputs t.outputs := by
  obtain ⟨F, -, rfl⟩ := leaveResult_next.1 h
  exact .refl _

theorem exec_addsOnlyFrames {i : Instr} {s t : State} (h : exec i s = .next t) :
    AddsOnlyFrames s.outputs t.outputs := by
  cases i with
  | start L => exact execStart_addsOnlyFrames h
  | stop => cases h; exact .refl _
  | complete n => exact execComplete_addsOnlyFrames h
  | loadFail => cases h; exact addsOnlyFrames_error _ _
  | transmit next => exact execTransmit_addsOnlyFrames h
  | done endIndex => cases h; exact addsOnlyFrames_done _ _
  | error arg => exact execError_addsOnlyFrames h
  | step index => exact sequencerStep_addsOnlyFrames (outcomeOf_next.1 h)
  | controlFrame f => exact leaveResult_addsOnlyFrames (r := .ok (controlBytes f)) h
  | dataFrame f => exact leaveResult_addsOnlyFrames (r := .ok (dataBytes f)) h
  | buildControlFrame B => exact leaveResult_addsOnlyFrames h
  | buildDataFrame C k => exact leaveResult_addsOnlyFrames h
  | pad C => exact leaveResult_addsOnlyFrames h
  | stripe F => exact leaveResult_addsOnlyFrames h

/-- Settles O44: the frames of a dispatch are the encoder's, which keeps the two formats, or bytes that TRANSMIT has
checked; no other instruction emits a TRANSMIT. -/
theorem onlyTheTwoFormatsAreSent : Obligations.OnlyTheTwoFormatsAreSent :=
  fun _ _ _ h F next hnew hold => isFrame_iff.1 (exec_addsOnlyFrames h F next hnew hold)

end Sys2Proof.Machine
end

section
/-! The bytes the frame encoder lays out: the ControlFrame of a buffer and the DataFrame of a chunk
(40_frame_encoder.md R77, R81). -/

namespace Sys2Proof.Machine

/-- Below 2^32 bytes the 32-bit field `length` holds the buffer's length, not a remainder of it. -/
theorem controlFieldsFor_length_toNat (H : Providers) {B : List Byte} (h : B.length < 2 ^ 32) :
    (controlFieldsFor H B).length.toNat = B.length :=
  (BitVec.toNat_ofNat _ _).trans (Nat.mod_eq_of_lt h)

theorem contentDigest_length (H : Providers) (B : List Byte) : (contentDigest H B).length = 16 :=
  Vector.length_toList

theorem buildControlFrame_eq (H : Providers) {B : List Byte} (h : B.length < 2 ^ 32) :
    buildControlFrame H B = preamble ++ [ctrlVersion] ++ le 4 B.length ++ le 4 (contentHash H B).toNat ++
      contentDigest H B ++
      le 4 (H.hash32 (headerHashInput (contentHash H B) (contentDigest H B)) seedHeader).toNat ++ [terminatorByte] := by
  rw [buildControlFrame, controlBytes, controlFieldsFor_length_toNat H h]
  rfl

/-- What `blockHash` covers is the version, the block number, the chunk and its padding, one after the other. -/
theorem blockHashInput_padChunk (k : Nat) (C : List Byte) :
    blockHashInput k (padChunk C) = [dataVersion] ++ le 2 k ++ C ++ rep (chunkSize - C.length) padByte := by
  rw [blockHashInput, padChunk, ← List.append_assoc]

/-- `blockHash` covers 259 bytes (41_hash_integration.md R98). -/
theorem blockHashInput_padChunk_length (k : Nat) {C : List Byte} (h : C.length ≤ 256) :
    (blockHashInput k (padChunk C)).length = 259 := by
  simp [blockHashInput, padChunk_length h]

theorem buildDataFrame_eq (H : Providers) (C : List Byte) (k : BitVec 16) :
    buildDataFrame H C k = stripe (preamble ++ blockHashInput k.toNat (padChunk C) ++
      le 4 (H.hash32 (blockHashInput k.toNat (padChunk C)) seedHeader).toNat ++ [terminatorByte]) := rfl

/-- Settles O7: the layout of the encoder's fields, whose `length` is exact below 2^32 bytes. -/
theorem controlFrameLayout : Obligations.ControlFrameLayout :=
  fun H B h => ⟨buildControlFrame_eq H h, contentDigest_length H B⟩

/-- Settles O8: the covered bytes of the statement are those the encoder hashes and places, and striping comes last. -/
theorem dataFrameLayout : Obligations.DataFrameLayout := by
  intro H C k _ hle covered
  have hcovered : blockHashInput k.toNat (padChunk C) = covered := blockHashInput_padChunk k.toNat C
  rw [← hcovered]
  exact ⟨buildDataFrame_eq H C k, blockHashInput_padChunk_length k.toNat hle⟩

end Sys2Proof.Machine
end

section
/-! Slices of byte sequences: one field between two others, and slices of a striped frame (00_scope.md R14,
40_frame_encoder.md R85, R88). -/

namespace Sys2Proof.Machine

/-- A slice that is exactly the middle part. -/
theorem slice_append_middle (P M S : List Byte) {a b : Nat} (ha : a = P.length) (hb : b = a + M.length) :
    slice (P ++ M ++ S) a b = M := by
  rw [List.append_assoc, slice_append_right _ _ _ _ ha.ge, ← ha, Nat.sub_self]
  exact slice_append_left M S _ (by omega)

/-- Adjacent slices make up one slice. -/
theorem slice_append_slice (S : List Byte) {a b c : Nat} (hab : a ≤ b) (hbc : b ≤ c) :
    slice S a b ++ slice S b c = slice S a c := by
  have hdrop : S.drop b = (S.drop a).drop (b - a) := by rw [List.drop_drop, Nat.add_sub_cancel' hab]
  have hlen : c - a = (b - a) + (c - b) := by omega
  rw [slice, slice, slice, hdrop, hlen, List.take_add]

/-- The last 5 bytes are not striped. -/
theorem slice_stripe_tail {F : List Byte} {a : Nat} (b : Nat) (h : F.length ≤ a + 5) :
    slice (stripe F) a b = slice F a b := by
  have hdrop : (stripe F).drop a = F.drop a := by
    apply List.ext_getElem?
    intro q
    rw [List.getElem?_drop, List.getElem?_drop, stripe_getElem?_outside (.inr (by omega))]
  rw [slice, slice, hdrop]

/-- The mask of a lane depends on its position only, and XOR with a mask is its own inverse. -/
theorem stripeByte_stripeByte (n p : Nat) (b : Byte) : stripeByte n p (stripeByte n p b) = b := by
  unfold stripeByte
  split
  · split
    · rw [BitVec.xor_assoc, BitVec.xor_self, BitVec.xor_zero]
    · split
      · rw [BitVec.xor_assoc, BitVec.xor_self, BitVec.xor_zero]
      · rfl
  · rfl

/-- Un-striping is striping (40_frame_encoder.md R88). -/
theorem stripe_stripe (F : List Byte) : stripe (stripe F) = F := by
  apply List.ext_getElem?
  intro q
  rw [stripe_getElem?, stripe_getElem?, stripe_length]
  cases F[q]? with
  | none => rfl
  | some b => exact congrArg some (stripeByte_stripeByte _ q b)

end Sys2Proof.Machine
end

section
/-! Where the results of the provider calls stand in the frames, and that nothing else of the providers enters them
(41_hash_integration.md R97, R98). -/

namespace Sys2Proof.Machine

theorem controlBytes_slice_contentHash (f : ControlFields) :
    slice (controlBytes f) 12 16 = le 4 f.contentHash.toNat := by
  have hsplit : controlBytes f = (preamble ++ [ctrlVersion] ++ le 4 f.length.toNat) ++ le 4 f.contentHash.toNat ++
      (f.contentDigest ++ le 4 f.headerHash.toNat ++ [f.terminator]) := by
    simp only [controlBytes, List.append_assoc]
  rw [hsplit]
  exact slice_append_middle _ _ _ (by simp) (by simp)

theorem controlBytes_slice_contentDigest {f : ControlFields} (h : f.contentDigest.length = 16) :
    slice (controlBytes f) 16 32 = f.contentDigest := by
  rw [controlBytes, List.append_assoc _ (le 4 f.headerHash.toNat)]
  exact slice_append_middle _ _ _ (by simp) (by simp [h])

theorem controlBytes_slice_headerHash {f : ControlFields} (h : f.contentDigest.length = 16) :
    slice (controlBytes f) 32 36 = le 4 f.headerHash.toNat :=
  slice_append_middle _ _ [f.terminator] (by simp [h]) (by simp)

/-- The 20 bytes before `headerHash` are the two fields it covers, as placed. -/
theorem controlBytes_slice_headerHashInput {f : ControlFields} (h : f.contentDigest.length = 16) :
    slice (controlBytes f) 12 32 = headerHashInput f.contentHash f.contentDigest := by
  rw [← slice_append_slice _ (b := 16) (by decide) (by decide), controlBytes_slice_contentHash,
    controlBytes_slice_contentDigest h, headerHashInput]

/-- What `headerHash` covers, read from the built frame. -/
theorem buildControlFrame_slice_headerHashInput (H : Providers) (B : List Byte) :
    slice (buildControlFrame H B) 12 32 = headerHashInput (contentHash H B) (contentDigest H B) :=
  controlBytes_slice_headerHashInput (contentDigest_length H B)

/-- Providers that agree on the three calls of R97 build the same ControlFrame. The third call of `H'` has the input of
the third call of `H`, because the first two agree. -/
theorem buildControlFrame_congr {H H' : Providers} {B : List Byte} (hhash : contentHash H' B = contentHash H B)
    (hdigest : contentDigest H' B = contentDigest H B)
    (hheader : H'.hash32 (headerHashInput (contentHash H B) (contentDigest H B)) seedHeader =
      H.hash32 (headerHashInput (contentHash H B) (contentDigest H B)) seedHeader) :
    buildControlFrame H' B = buildControlFrame H B := by
  have hfields : controlFieldsFor H' B = controlFieldsFor H B := by
    rw [controlFieldsFor, hhash, hdigest, hheader, controlFieldsFor]
  rw [buildControlFrame, hfields, buildControlFrame]

/-- Settles O10: the header bytes that the third call covers are the results of the first two where they are placed. -/
theorem controlFrameProviderCalls : Obligations.ControlFrameProviderCalls := by
  intro H B F
  have hd : (controlFieldsFor H B).contentDigest.length = 16 := contentDigest_length H B
  have hcovered : slice F 12 32 = headerHashInput (contentHash H B) (contentDigest H B) :=
    buildControlFrame_slice_headerHashInput H B
  rw [hcovered]
  refine ⟨rfl, controlBytes_slice_contentHash _, controlBytes_slice_contentDigest hd, rfl,
    controlBytes_slice_headerHash hd, ?_⟩
  intro H' hhash hdigest hheader
  exact buildControlFrame_congr hhash (congrArg Vector.toList hdigest) hheader

/-- The bytes that `blockHash` covers stand at [7, 266) of the assembled frame. -/
theorem assembledBytes_slice_blockHashInput {f : DataFields} (h : f.payload.length = 256) :
    slice (assembledBytes f) 7 266 = blockHashInput f.blockNumber.toNat f.payload := by
  rw [assembledBytes, List.append_assoc _ (le 4 f.blockHash.toNat)]
  exact slice_append_middle _ _ _ rfl (by simp [blockHashInput, h])

theorem assembledBytes_slice_blockHash {f : DataFields} (h : f.payload.length = 256) :
    slice (assembledBytes f) 266 270 = le 4 f.blockHash.toNat :=
  slice_append_middle _ _ [f.terminator] (by simp [blockHashInput, h]) (by simp)

/-- `blockHash` lies outside the striped range, so it is sent as assembled. -/
theorem dataBytes_slice_blockHash {f : DataFields} (h : f.payload.length = 256) :
    slice (dataBytes f) 266 270 = le 4 f.blockHash.toNat := by
  rw [dataBytes, slice_stripe_tail _ (by rw [assembledBytes_length, h]), assembledBytes_slice_blockHash h]

/-- Un-striping a DataFrame gives back the bytes as assembled. -/
theorem stripe_dataBytes (f : DataFields) : stripe (dataBytes f) = assembledBytes f :=
  stripe_stripe _

/-- What `blockHash` covers, read from the un-striped frame. -/
theorem buildDataFrame_slice_blockHashInput (H : Providers) {C : List Byte} (k : BitVec 16) (h : C.length ≤ 256) :
    slice (stripe (buildDataFrame H C k)) 7 266 = blockHashInput k.toNat (padChunk C) := by
  rw [buildDataFrame, stripe_dataBytes]
  exact assembledBytes_slice_blockHashInput (padChunk_length h)

/-- Providers that agree on the one call of R98 build the same DataFrame. -/
theorem buildDataFrame_congr {H H' : Providers} {C : List Byte} {k : BitVec 16}
    (h : H'.hash32 (blockHashInput k.toNat (padChunk C)) seedHeader =
      H.hash32 (blockHashInput k.toNat (padChunk C)) seedHeader) :
    buildDataFrame H' C k = buildDataFrame H C k := by
  rw [buildDataFrame_eq, h, buildDataFrame_eq]

/-- Settles O11: un-striping gives back the bytes the call covers, and its result stands among the last 5 bytes, which
are not striped. -/
theorem dataFrameProviderCall : Obligations.DataFrameProviderCall := by
  intro H C k _ hle G input
  have hpayload : (dataFieldsFor H C k).payload.length = 256 := padChunk_length hle
  have hinput : input = blockHashInput k.toNat (padChunk C) := rfl
  rw [hinput]
  exact ⟨rfl, blockHashInput_padChunk_length k.toNat hle, buildDataFrame_slice_blockHashInput H k hle,
    dataBytes_slice_blockHash hpayload, fun _ h => buildDataFrame_congr h⟩

end Sys2Proof.Machine
end

section
/-! What the core takes next when one channel is closed, and the step that runs it (42_sequencer.md R105). -/

namespace Sys2Proof.Machine

/-- A word that comes from a channel was taken with an empty port. -/
theorem port_eq_none_of_fetch {s : State} {f : Fetched} (hf : fetch s = some f) (hsrc : f.source ≠ .port) :
    s.port = none := by
  cases hp : s.port with
  | none => rfl
  | some x =>
    simp only [fetch, hp, Option.some.injEq] at hf
    exact absurd (congrArg Fetched.source hf).symm hsrc

/-- What is left after the control channel's head is taken: that channel shortened, the head's buffer presented, and
the model's own choice fields. -/
theorem fetch_control_rest {s : State} {f : Fetched} (hf : fetch s = some f) (hsrc : f.source = .control) :
    ∃ c cs sched k, s.control = c :: cs ∧
      f.rest = { s with control := cs, presented := c.side, schedule := sched, draws := k } := by
  have hport : s.port = none := port_eq_none_of_fetch hf (by simp [hsrc])
  obtain ⟨s', hs', ⟨c, cs, hcs, -, -, -, hrest⟩ | ⟨w, ws, -, hcompletion, -, -⟩⟩ := fetch_cases hport hf
  · refine ⟨c, cs, s'.schedule, s'.draws, hcs, ?_⟩
    obtain rfl | rfl := hs' <;> exact hrest
  · rw [hsrc] at hcompletion
    cases hcompletion

theorem takeControl_cons {s : State} {c : ControlItem} {cs : List ControlItem} (h : s.control = c :: cs) :
    takeControl s = some ⟨.control, .event c.word, { s with control := cs, presented := c.side }⟩ := by
  simp only [takeControl, h]

theorem takeCompletion_nil {s : State} (h : s.completion = []) : takeCompletion s = none := by
  simp only [takeCompletion, h]

theorem takeCompletion_cons {s : State} {w : EventWord} {ws : List EventWord} (h : s.completion = w :: ws) :
    takeCompletion s = some ⟨.completion, .event w, { s with completion := ws }⟩ := by
  simp only [takeCompletion, h]

theorem controlReady_cons {s : State} {c : ControlItem} {cs : List ControlItem} (h : s.control = c :: cs) :
    controlReady s = !held s c := by
  simp only [controlReady, h]

/-- With no enabled control head, only the completion channel is open. -/
theorem fetch_of_not_controlReady {s : State} (hport : s.port = none) (hr : controlReady s = false) :
    fetch s = takeCompletion s := by
  cases hc : s.completion with
  | nil => simp [fetch, hport, hr, completionReady, hc, takeCompletion_nil hc]
  | cons w ws => simp [fetch, hport, hr, completionReady, hc]

/-- With no completion waiting, an enabled control head is taken, and no choice is drawn. -/
theorem fetch_of_controlReady {s : State} (hport : s.port = none) (hr : controlReady s = true)
    (hc : s.completion = []) : fetch s = takeControl s := by
  simp [fetch, hport, hr, completionReady, hc]

/-- A step that takes a word its channel carries runs the word's instruction on what is left. -/
theorem step_eq_exec {s : State} {f : Fetched} {i : Instr} (hs : ¬(s.status = .sending ∧ s.inFlight = false))
    (hf : fetch s = some f) (hd : decode f.item = .ok i) (hc : f.source.carries i = true) :
    step s = exec i f.rest := by
  simp only [step, if_neg hs, hf, interpret_ok.2 ⟨hd, hc⟩]

end Sys2Proof.Machine
end

section
/-! START, STOP and LOAD_FAIL outside an opening session (42_sequencer.md R111, R113, R115, R117). -/

namespace Sys2Proof.Machine

theorem State.presents_iff {s : State} {L : Word32} : s.presents L = true ↔ s.presented.len = L.toNat := beq_iff_eq

/-- While Sending START has no effect (R111), whatever its length. -/
theorem execStart_of_sending {s : State} {L : Word32} (hp : s.presented.len = L.toNat) (hs : s.status = .sending) :
    execStart L s = .next s := by
  rw [execStart, if_pos (State.presents_iff.2 hp), if_pos hs]

/-- While Idle with nothing in flight, START above MAX_LEN only raises RANGE_OVERFLOW (R113). -/
theorem execStart_of_tooLong {s : State} {L : Word32} (hp : s.presented.len = L.toNat) (hs : s.status = .idle)
    (hf : s.inFlight = false) (hL : maxLen < L.toNat) : execStart L s = .next (raise .rangeOverflow s) := by
  rw [execStart, if_pos (State.presents_iff.2 hp), if_neg (by simp [hs]), if_neg (by simp [hf]), if_pos hL]

/-- Raising an error writes `lastError` and emits one ERROR (60_exceptions.md R130). -/
theorem raise_eq (e : ErrorCode) (s : State) :
    raise e s = { s with lastError := e.bits, outputs := s.outputs ++ [.error e.bits] } := rfl

theorem exec_stop (s : State) : exec .stop s = .next (setIdle s) := rfl

theorem exec_loadFail (s : State) : exec .loadFail s = .next (raise .transportFailure s) := rfl

/-- Settles O29: the step runs START on what is left of the state, where it has no effect, and what is left differs
from the state in the control channel and the model's own fields only. -/
theorem startWhileSendingIsNoOp : Obligations.StartWhileSendingIsNoOp := by
  intro s f L hs hfl hf hsrc hd hlen
  obtain ⟨c, cs, sched, k, hcs, hrest⟩ := fetch_control_rest hf hsrc
  have hrun : step s = exec (.start L) f.rest := step_eq_exec (by simp [hfl]) hf hd (by rw [hsrc]; rfl)
  have hnoop : exec (.start L) f.rest = .next f.rest := execStart_of_sending hlen (by rw [hrest]; exact hs)
  refine ⟨hrun.trans hnoop, ?_⟩
  rw [hrest]
  exact ⟨⟨c, hcs⟩, rfl, rfl, rfl, rfl, rfl, rfl, rfl, rfl, rfl, rfl⟩

/-- Settles O31: what is left of START above MAX_LEN is the raise of RANGE_OVERFLOW. -/
theorem startTooLongIsRejected : Obligations.StartTooLongIsRejected := by
  intro s L hs hf hp hL
  exact (execStart_of_tooLong hp hs hf hL).trans (congrArg _ (raise_eq .rangeOverflow s))

/-- Settles O32: STOP is the update `setIdle`. -/
theorem stopWritesStatusOnly : Obligations.StopWritesStatusOnly :=
  fun s => exec_stop s

/-- Settles O35: LOAD_FAIL is the raise of TRANSPORT_FAILURE, in every state. -/
theorem loadFailRaisesTransportFailure : Obligations.LoadFailRaisesTransportFailure :=
  fun s => (exec_loadFail s).trans (congrArg _ (raise_eq .transportFailure s))

end Sys2Proof.Machine
end

section
/-! The START that is held while Idle with a frame in flight, and the COMPLETE that lifts the hold
(42_sequencer.md R112, R116). -/

namespace Sys2Proof.Machine

/-- The word of a START has its code and its length. -/
theorem eq_eventWord_of_decode_start {w : EventWord} {L : Word32} (h : decode (.event w) = .ok (.start L)) :
    w = eventWord codeStart L := by
  cases encode_of_decodeEvent h
  rfl

theorem decode_eventWord_complete (n : Word32) : decode (.event (eventWord codeComplete n)) = .ok (.complete n) := by
  simp [decode, decodeEvent, codeStart, codeStop, codeComplete]

theorem ControlItem.isStart_of_decode {c : ControlItem} {L : Word32} (hd : decode (.event c.word) = .ok (.start L))
    (hlen : c.side.len = L.toNat) : c.isStart = true := by
  simp [ControlItem.isStart, eq_eventWord_of_decode_start hd, hlen]

theorem held_eq_true {s : State} {c : ControlItem} (hs : s.status = .idle) (hf : s.inFlight = true)
    (hc : c.isStart = true) : held s c = true := by
  simp [held, hs, hf, hc]

/-- The hold needs a frame in flight. -/
theorem held_eq_false {s : State} (c : ControlItem) (hf : s.inFlight = false) : held s c = false := by
  simp [held, hf]

/-- A COMPLETE while Idle with a frame in flight clears `inFlight`, and a wrong echo raises COMPLETION_MISMATCH too; the
step of a right echo is cancelled (R116, R119). -/
theorem execComplete_of_idle (n : Word32) {s : State} (hs : s.status = .idle) (hf : s.inFlight = true) :
    execComplete n s = .next (clearInFlight s) ∨
    execComplete n s = .next (raise .completionMismatch (setIdle (clearInFlight s))) := by
  obtain ⟨hf', -⟩ | ⟨-, -, hr⟩ | ⟨-, -, hr⟩ := execComplete_cases n s
  · rw [hf] at hf'
    cases hf'
  · exact .inr hr
  · refine .inl ?_
    rw [hr, sequencerStep, if_pos (by exact hs), outcomeOf_ok]

/-- With the port and the completion channel empty and the control head not held, the step runs that head. -/
theorem step_control_head {s : State} {c : ControlItem} {cs : List ControlItem} {i : Instr}
    (hs : ¬(s.status = .sending ∧ s.inFlight = false)) (hport : s.port = none) (hcs : s.control = c :: cs)
    (hheld : held s c = false) (hcompletion : s.completion = []) (hd : decode (.event c.word) = .ok i)
    (hcarries : onControl i = true) : step s = exec i { s with control := cs, presented := c.side } := by
  have hready : controlReady s = true := by rw [controlReady_cons hcs, hheld]; rfl
  have hf := (fetch_of_controlReady hport hready hcompletion).trans (takeControl_cons hcs)
  exact step_eq_exec hs hf hd hcarries

/-- With the port empty and the control channel closed, a COMPLETE at the head of its channel is run. -/
theorem step_complete_head {s : State} {n : Word32} {ws : List EventWord}
    (hs : ¬(s.status = .sending ∧ s.inFlight = false)) (hport : s.port = none) (hr : controlReady s = false)
    (hw : s.completion = eventWord codeComplete n :: ws) : step s = execComplete n { s with completion := ws } := by
  have hf := (fetch_of_not_controlReady hport hr).trans (takeCompletion_cons hw)
  exact step_eq_exec hs hf (decode_eventWord_complete n) rfl

/-- Settles O30: the hold closes the control channel, so that only a completion is taken; a COMPLETE leaves Idle with
nothing in flight on either echo, where nothing is held, and the next step runs the START. -/
theorem startIsHeldWhileAFrameIsInFlight : Obligations.StartIsHeldWhileAFrameIsInFlight := by
  intro s c cs L hs hfl hport hcs hd hlen
  have hheld : held s c = true := held_eq_true hs hfl (ControlItem.isStart_of_decode hd hlen)
  have hclosed : controlReady s = false := by rw [controlReady_cons hcs, hheld]; rfl
  have hfetch : fetch s = takeCompletion s := fetch_of_not_controlReady hport hclosed
  refine ⟨fun f hf => ?_, fun hnil => hfetch.trans (takeCompletion_nil hnil), fun n ws hw => ?_⟩
  · cases hcompletion : s.completion with
    | nil =>
      rw [hfetch, takeCompletion_nil hcompletion] at hf
      cases hf
    | cons w ws =>
      rw [hfetch, takeCompletion_cons hcompletion] at hf
      cases hf
      exact ⟨rfl, rfl⟩
  · have hstep : step s = execComplete n { s with completion := ws } :=
      step_complete_head (by simp [hs]) hport hclosed hw
    have hstart (t : State) (hst : t.status = .idle) (hft : t.inFlight = false) (hpt : t.port = none)
        (hct : t.control = c :: cs) (hnil : t.completion = []) :
        step t = exec (.start L) { t with control := cs, presented := c.side } :=
      step_control_head (by simp [hst]) hpt hct (held_eq_false c hft) hnil hd rfl
    obtain hr | hr := execComplete_of_idle n (s := { s with completion := ws }) hs hfl
    · exact ⟨_, hstep.trans hr, hs, rfl, rfl, rfl, rfl, fun _ _ hmem => hmem,
        fun hnil => hstart _ hs rfl hport hcs hnil⟩
    · exact ⟨_, hstep.trans hr, rfl, rfl, rfl, rfl, rfl, fun _ _ hmem => by simpa using hmem,
        fun hnil => hstart _ rfl rfl hport hcs hnil⟩

end Sys2Proof.Machine
end

section
/-! The frames of `step(index)`: none while Idle, the control frame at indices 0 and 1, then the blocks
(42_sequencer.md R119 to R122). -/

namespace Sys2Proof.Machine

theorem exec_step (index : Word32) (s : State) : exec (.step index) s = outcomeOf (sequencerStep index s) := rfl

theorem sequencerStep_of_idle (index : Word32) {s : State} (hs : s.status = .idle) : sequencerStep index s = .ok s := by
  rw [sequencerStep, if_pos hs]

/-- While Sending an index below 2 is a control step (R120). -/
theorem sequencerStep_eq_controlStep {s : State} {index : Word32} (hs : s.status = .sending) (hi : index.toNat < 2) :
    sequencerStep index s = controlStep index.toNat s := by
  obtain ⟨hidle, -⟩ | ⟨-, -, hr⟩ | ⟨-, h2, -⟩ | ⟨-, hend, -⟩ | ⟨-, hend, -⟩ | ⟨-, hpast, -⟩ :=
    sequencerStep_cases index s
  · rw [hs] at hidle
    cases hidle
  · exact hr
  all_goals omega

/-- While Sending the index of a block is a data step (R121). -/
theorem sequencerStep_eq_dataStep {s : State} {index : Word32} (hs : s.status = .sending) (h2 : 2 ≤ index.toNat)
    (hi : index.toNat < 2 + s.blocks) : sequencerStep index s = dataStep index.toNat s := by
  obtain ⟨hidle, -⟩ | ⟨-, hlt, -⟩ | ⟨-, -, -, hr⟩ | ⟨-, hend, -⟩ | ⟨-, hend, -⟩ | ⟨-, hpast, -⟩ :=
    sequencerStep_cases index s
  · rw [hs] at hidle
    cases hidle
  case inr.inr.inl => exact hr
  all_goals omega

/-- A dispatch at a 32-bit index, as the one record it leaves (R123). -/
theorem dispatch_toNat (index : Word32) (F : List Byte) (s : State) :
    dispatch index.toNat F s =
      { s with
        frameIndex := index
        inFlight := true
        outputs := s.outputs ++ [.transmit F (index + 1)]
        playing := s.playing ++ [⟨F, index + 1⟩] } := by
  have hindex : BitVec.ofNat 32 index.toNat = index := by simp
  have hnext : BitVec.ofNat 32 (index.toNat + 1) = index + 1 := by rw [BitVec.ofNat_add, hindex]; rfl
  rw [dispatch, hindex, hnext]
  rfl

/-- A control step with the whole buffer in SRC (R120). -/
theorem controlStep_eq {s : State} (index : Nat) (hlen : s.src.len = s.srcLen.toNat) :
    controlStep index s = .ok (dispatch index (buildControlFrame Config.providers (s.src.bytes 0 s.src.len)) s) :=
  controlStep_ok.2 ⟨hlen.ge, by rw [hlen]⟩

/-- A data step of a block that exists, with the whole buffer in SRC (R121, R122). -/
theorem dataStep_eq {s : State} {index : Nat} (hlen : s.src.len = s.srcLen.toNat) (hmax : s.srcLen.toNat ≤ maxLen)
    (hi : index - 2 < s.blocks) :
    dataStep index s = .ok (dispatch index (buildDataFrame Config.providers
      (s.src.bytes (256 * (index - 2)) (chunkLength s.src.len (index - 2))) (BitVec.ofNat 16 (index - 2))) s) := by
  obtain ⟨hinside, hchunk⟩ := chunkLength_bounds hi
  have hblock : index - 2 < maxBlocks := hi.trans_le (blocksOf_le hmax)
  exact dataStep_ok.2 ⟨⟨hinside, hlen ▸ hinside⟩, hchunk, hblock, by rw [hlen]⟩

/-- Settles O36: the cancellation check comes first. -/
theorem stepWhileIdleIsCancelled : Obligations.StepWhileIdleIsCancelled := by
  intro s index hs
  rw [exec_step, sequencerStep_of_idle index hs, outcomeOf_ok]

/-- Settles O37: both indices are control steps of the same buffer. -/
theorem stepSendsTheControlFrameTwice : Obligations.StepSendsTheControlFrameTwice := by
  intro s index hs hlen hi F
  have hlt : index.toNat < 2 := by obtain rfl | rfl := hi <;> decide
  rw [exec_step, sequencerStep_eq_controlStep hs hlt, controlStep_eq _ hlen, outcomeOf_ok, dispatch_toNat]

/-- Settles O38: the index is that of a block, and a buffer of at most MAX_LEN bytes has no block beyond 16 bits. -/
theorem stepSendsTheBlock : Obligations.StepSendsTheBlock := by
  intro s index hs hlen hmax h2 hlt i n F
  have hi : i < s.blocks := by omega
  have hblock : i < maxBlocks := hi.trans_le (blocksOf_le hmax)
  have hn : chunkLength s.src.len i = n := by simp only [n, chunkLength, chunkSize, State.blocks, hlen]
  refine ⟨Nat.mod_eq_of_lt hblock, ?_⟩
  rw [exec_step, sequencerStep_eq_dataStep hs h2 hlt, dataStep_eq hlen hmax hi, outcomeOf_ok, dispatch_toNat, hn]

end Sys2Proof.Machine
end

section
/-! The frames read back field by field, and the decoder and the encoder as inverses of each other (30_encoding.md R57,
R60, R64, R67, R74; 40_frame_encoder.md R88). -/

namespace Sys2Proof.Machine

/-! The fields of a frame, from their values to their bytes and back. -/

theorem slice_zero (S : List Byte) (n : Nat) : slice S 0 n = S.take n := rfl

theorem slice_single {S : List Byte} {p : Nat} {b : Byte} (h : S[p]? = some b) : slice S p (p + 1) = [b] := by
  obtain ⟨hp, rfl⟩ := List.getElem?_eq_some_iff.1 h
  rw [slice, Nat.add_sub_cancel_left, List.drop_eq_getElem_cons hp, List.take_succ_cons, List.take_zero]

theorem le4_ofNat_fromLe {S : List Byte} (h : S.length = 4) : le 4 (BitVec.ofNat 32 (fromLe S)).toNat = S := by
  have hlt : fromLe S < 2 ^ 32 := by simpa [h] using fromLe_lt S
  rw [BitVec.toNat_ofNat, Nat.mod_eq_of_lt hlt, ← h, le_fromLe]

theorem le2_ofNat_fromLe {S : List Byte} (h : S.length = 2) : le 2 (BitVec.ofNat 16 (fromLe S)).toNat = S := by
  have hlt : fromLe S < 2 ^ 16 := by simpa [h] using fromLe_lt S
  rw [BitVec.toNat_ofNat, Nat.mod_eq_of_lt hlt, ← h, le_fromLe]

/-- The byte after a sequence stands at the offset of the sequence's length. -/
theorem getElem?_append_single {S : List Byte} (b : Byte) {p : Nat} (h : p = S.length) : (S ++ [b])[p]? = some b := by
  rw [h, List.getElem?_concat_length]

theorem controlBytes_slice_length (f : ControlFields) : slice (controlBytes f) 8 12 = le 4 f.length.toNat := by
  have hsplit : controlBytes f = (preamble ++ [ctrlVersion]) ++ le 4 f.length.toNat ++
      (le 4 f.contentHash.toNat ++ f.contentDigest ++ le 4 f.headerHash.toNat ++ [f.terminator]) := by
    simp only [controlBytes, List.append_assoc]
  rw [hsplit]
  exact slice_append_middle _ _ _ rfl (by simp)

theorem controlBytes_terminator {f : ControlFields} (h : f.contentDigest.length = 16) :
    (controlBytes f)[36]? = some f.terminator :=
  getElem?_append_single _ (by simp [h])

/-- The fields of a ControlFrame are read back from its bytes. -/
theorem controlFieldsOf_controlBytes {f : ControlFields} (h : f.contentDigest.length = 16) :
    controlFieldsOf (controlBytes f) = f := by
  simp only [controlFieldsOf, controlBytes_slice_length, controlBytes_slice_contentHash,
    controlBytes_slice_contentDigest h, controlBytes_slice_headerHash h, controlBytes_terminator h, ofNat_fromLe_le4,
    Option.getD_some]

/-- Bytes with the header and the length of a ControlFrame are the bytes of the fields read from them. -/
theorem controlBytes_controlFieldsOf {F : List Byte} (hlen : F.length = ctrlLen) (hpre : F.take 7 = preamble)
    (htype : F[7]? = some ctrlVersion) : controlBytes (controlFieldsOf F) = F := by
  have hword (a : Nat) (ha : a + 4 ≤ 37) : le 4 (BitVec.ofNat 32 (fromLe (slice F a (a + 4)))).toNat = slice F a (a + 4) :=
    le4_ofNat_fromLe (by rw [slice_length, hlen, ctrlLen]; omega)
  have hlast : slice F 36 37 = [F[36]?.getD 0] := by
    have hin : 36 < F.length := by rw [hlen]; decide
    rw [List.getElem?_eq_getElem hin]
    exact slice_single (List.getElem?_eq_getElem hin)
  calc controlBytes (controlFieldsOf F)
      = slice F 0 7 ++ slice F 7 8 ++ slice F 8 12 ++ slice F 12 16 ++ slice F 16 32 ++ slice F 32 36 ++
          slice F 36 37 := by
        rw [slice_zero, hpre, slice_single htype, hlast, ← hword 8 (by omega), ← hword 12 (by omega),
          ← hword 32 (by omega)]
        rfl
    _ = slice F 0 37 := by
        iterate 6 rw [slice_append_slice _ (by omega) (by omega)]
    _ = F := List.take_of_length_le hlen.le

theorem assembledBytes_slice_blockNumber (f : DataFields) :
    slice (assembledBytes f) 8 10 = le 2 f.blockNumber.toNat := by
  have hsplit : assembledBytes f = (preamble ++ [dataVersion]) ++ le 2 f.blockNumber.toNat ++
      (f.payload ++ le 4 f.blockHash.toNat ++ [f.terminator]) := by
    simp only [assembledBytes, blockHashInput, List.append_assoc]
  rw [hsplit]
  exact slice_append_middle _ _ _ rfl (by simp)

theorem assembledBytes_slice_payload {f : DataFields} (h : f.payload.length = 256) :
    slice (assembledBytes f) 10 266 = f.payload := by
  have hsplit : assembledBytes f = (preamble ++ [dataVersion] ++ le 2 f.blockNumber.toNat) ++ f.payload ++
      (le 4 f.blockHash.toNat ++ [f.terminator]) := by
    simp only [assembledBytes, blockHashInput, List.append_assoc]
  rw [hsplit]
  exact slice_append_middle _ _ _ (by simp) (by rw [h])

theorem assembledBytes_terminator {f : DataFields} (h : f.payload.length = 256) :
    (assembledBytes f)[270]? = some f.terminator :=
  getElem?_append_single _ (by simp [blockHashInput, h])

/-- The fields of a DataFrame are read back from its bytes as sent. -/
theorem dataFieldsOf_dataBytes {f : DataFields} (h : f.payload.length = 256) : dataFieldsOf (dataBytes f) = f := by
  simp only [dataFieldsOf, stripe_dataBytes, assembledBytes_slice_blockNumber, assembledBytes_slice_payload h,
    assembledBytes_slice_blockHash h, assembledBytes_terminator h, ofNat_fromLe_le2, ofNat_fromLe_le4,
    Option.getD_some]

/-- Bytes with the header and the length of a DataFrame, un-striped, are the assembled bytes of the fields read from
them. -/
theorem assembledBytes_dataFieldsOf {F : List Byte} (hlen : F.length = dataLen) (hpre : F.take 7 = preamble)
    (htype : F[7]? = some dataVersion) : assembledBytes (dataFieldsOf F) = stripe F := by
  have hU : (stripe F).length = 271 := (stripe_length F).trans hlen
  have hpreU : (stripe F).take 7 = preamble := (stripe_take (by decide)).trans hpre
  have htypeU : (stripe F)[7]? = some dataVersion := (stripe_getElem?_outside (.inl (by decide))).trans htype
  have hblock : le 2 (BitVec.ofNat 16 (fromLe (slice (stripe F) 8 10))).toNat = slice (stripe F) 8 10 :=
    le2_ofNat_fromLe (by rw [slice_length, hU]; rfl)
  have hhash : le 4 (BitVec.ofNat 32 (fromLe (slice (stripe F) 266 270))).toNat = slice (stripe F) 266 270 :=
    le4_ofNat_fromLe (by rw [slice_length, hU]; rfl)
  have hlast : slice (stripe F) 270 271 = [(stripe F)[270]?.getD 0] := by
    have hin : 270 < (stripe F).length := by rw [hU]; decide
    rw [List.getElem?_eq_getElem hin]
    exact slice_single (List.getElem?_eq_getElem hin)
  calc assembledBytes (dataFieldsOf F)
      = slice (stripe F) 0 7 ++ (slice (stripe F) 7 8 ++ slice (stripe F) 8 10 ++ slice (stripe F) 10 266) ++
          slice (stripe F) 266 270 ++ slice (stripe F) 270 271 := by
        rw [slice_zero, hpreU, slice_single htypeU, hlast, ← hblock, ← hhash]
        rfl
    _ = slice (stripe F) 0 271 := by
        iterate 5 rw [slice_append_slice _ (by omega) (by omega)]
    _ = stripe F := List.take_of_length_le hU.le

/-- A DataFrame's bytes are the bytes of the fields read from them. -/
theorem dataBytes_dataFieldsOf {F : List Byte} (hlen : F.length = dataLen) (hpre : F.take 7 = preamble)
    (htype : F[7]? = some dataVersion) : dataBytes (dataFieldsOf F) = F := by
  rw [dataBytes, assembledBytes_dataFieldsOf hlen hpre htype, stripe_stripe]

/-! The decoder and the encoder. -/

/-- What the bytes of a frame decode to: the header and the length select the format (30_encoding.md R64). -/
theorem decodeFrame_ok_iff {F : List Byte} {i : Instr} :
    decodeFrame F = .ok i ↔ F.take 7 = preamble ∧
      (F.length = ctrlLen ∧ F[7]? = some ctrlVersion ∧ i = .controlFrame (controlFieldsOf F) ∨
       F.length = dataLen ∧ F[7]? = some dataVersion ∧ i = .dataFrame (dataFieldsOf F)) := by
  have hne : ctrlVersion ≠ dataVersion := by decide
  unfold decodeFrame
  cases hn : frameLength F with
  | none =>
    have hc : ¬F[7]? = some ctrlVersion := fun h => by simp [frameLength_eq_some_iff.2 (.inl ⟨rfl, h⟩)] at hn
    have hd : ¬F[7]? = some dataVersion := fun h => by simp [frameLength_eq_some_iff.2 (.inr ⟨rfl, h⟩)] at hn
    simp [hc, hd]
  | some n =>
    by_cases hp : F.take 7 = preamble
    · obtain ⟨rfl, htype⟩ | ⟨rfl, htype⟩ := frameLength_eq_some_iff.1 hn
      · by_cases hlen : F.length = ctrlLen <;> simp [hp, htype, hne, hlen, eq_comm (b := i)]
      · by_cases hlen : F.length = dataLen <;> simp [hp, htype, hne.symm, hlen, eq_comm (b := i)]
    · by_cases hlen : F.length = n <;> simp [hp, hlen]

theorem decode_of_encode_event {i : Instr} {w : EventWord} (h : encode i = some (.event w)) :
    decode (.event w) = .ok i := by
  cases i
  all_goals cases h
  all_goals simp [decode, decodeEvent, codeStart, codeStop, codeComplete, codeLoadFail, codeTransmit, codeDone, codeError]

theorem decode_controlBytes {f : ControlFields} (h : f.wellFormed = true) :
    decode (.frame (controlBytes f)) = .ok (.controlFrame f) := by
  have hdigest : f.contentDigest.length = 16 := by
    simp only [ControlFields.wellFormed, Bool.and_eq_true, beq_iff_eq] at h
    exact h.1
  obtain ⟨hpre, -, -⟩ := isFrame_iff.1 (isFrame_controlBytes h)
  refine decodeFrame_ok_iff.2 ⟨hpre, .inl ⟨?_, controlBytes_type f, ?_⟩⟩
  · rw [controlBytes_length, hdigest, ctrlLen]
  · rw [controlFieldsOf_controlBytes hdigest]

theorem decode_dataBytes {f : DataFields} (h : f.wellFormed = true) :
    decode (.frame (dataBytes f)) = .ok (.dataFrame f) := by
  have hpayload : f.payload.length = 256 := by
    simp only [DataFields.wellFormed, Bool.and_eq_true, beq_iff_eq] at h
    exact h.1
  obtain ⟨hpre, -, -⟩ := isFrame_iff.1 (isFrame_dataBytes h)
  refine decodeFrame_ok_iff.2 ⟨hpre, .inr ⟨?_, dataBytes_type f, ?_⟩⟩
  · rw [dataBytes_length, hpayload, dataLen]
  · rw [dataFieldsOf_dataBytes hpayload]

theorem encode_of_decodeFrame {F : List Byte} {i : Instr} (h : decodeFrame F = .ok i) : encode i = some (.frame F) := by
  obtain ⟨hpre, ⟨hlen, htype, rfl⟩ | ⟨hlen, htype, rfl⟩⟩ := decodeFrame_ok_iff.1 h
  · rw [encode, controlBytes_controlFieldsOf hlen hpre htype]
  · rw [encode, dataBytes_dataFieldsOf hlen hpre htype]

/-- Settles O1: an event word carries its code and its argument, and a frame's fields are read back from its bytes,
after un-striping where the format is striped. -/
theorem decodeOfEncodeIsTheInstruction : Obligations.DecodeOfEncodeIsTheInstruction := by
  intro i t hwf henc
  cases t with
  | event w => exact decode_of_encode_event henc
  | frame F =>
    cases i with
    | controlFrame f => cases henc; exact decode_controlBytes hwf
    | dataFrame f => cases henc; exact decode_dataBytes hwf
    | _ => cases henc

/-- Settles O2: neither a word nor a frame has a bit that its instruction does not carry. -/
theorem encodeOfDecodeIsTheTransaction : Obligations.EncodeOfDecodeIsTheTransaction := by
  intro t i h
  cases t with
  | event w => exact encode_of_decodeEvent h
  | frame F => exact encode_of_decodeFrame h

/-! The opcode table. -/

/-- Every instruction with an encoding has the bits of its row (30_encoding.md R74). -/
theorem encode_selects_row (i : Instr) : Laws.EncodingSelectsItsRow.Statement i := by
  cases i with
  | controlFrame f => exact Laws.EncodingSelectsItsRow.controlFrame f
  | dataFrame f => exact Laws.EncodingSelectsItsRow.dataFrame f
  | start L => exact Laws.EncodingSelectsItsRow.start L
  | stop => exact Laws.EncodingSelectsItsRow.stop
  | complete n => exact Laws.EncodingSelectsItsRow.complete n
  | loadFail => exact Laws.EncodingSelectsItsRow.loadFail
  | transmit next => exact Laws.EncodingSelectsItsRow.transmit next
  | done e => exact Laws.EncodingSelectsItsRow.done e
  | error arg => exact Laws.EncodingSelectsItsRow.error arg
  | step index => exact Laws.EncodingSelectsItsRow.step index
  | buildControlFrame B => exact Laws.EncodingSelectsItsRow.buildControlFrame B
  | buildDataFrame C k => exact Laws.EncodingSelectsItsRow.buildDataFrame C k
  | pad C => exact Laws.EncodingSelectsItsRow.pad C
  | stripe F => exact Laws.EncodingSelectsItsRow.stripe F

/-- A row with an argument selects the words of its code, at every argument. -/
theorem eventCode_of_selects {w : EventWord} {p : Nat} (h : (TableRow.mk 40 p 0xFF00000000).selects w.toNat = true) :
    (eventCode w).toNat * 2 ^ 32 = p := by
  rw [← Laws.EncodingSelectsItsRow.event_selects (eventCode w) (eventArg w), eventWord_eta]
  exact beq_iff_eq.1 h

/-- A row without an argument selects one word. -/
theorem toNat_of_selects {w : EventWord} {p : Nat} (h : (TableRow.mk 40 p 0xFFFFFFFFFF).selects w.toNat = true) :
    w.toNat = p := by
  have hmask : w.toNat &&& (2 ^ 40 - 1) = w.toNat := by
    rw [Nat.and_two_pow_sub_one_eq_mod, Nat.mod_eq_of_lt w.isLt]
  exact hmask.symm.trans (beq_iff_eq.1 h)

/-- The seven rows of 40 bits, and the instruction each selects from a word with its bits. -/
theorem encode_of_selects {w : EventWord} {r : TableRow} (hr : r ∈ tableRows) (hbits : r.nbits = 40)
    (h : r.selects w.toNat = true) : ∃ i, encode i = some (.event w) ∧ i.row = some r := by
  have hword {code : Byte} {p : Nat} (hs : (TableRow.mk 40 p 0xFF00000000).selects w.toNat = true)
      (hp : p = code.toNat * 2 ^ 32) : w = eventWord code (eventArg w) := by
    have hcode : eventCode w = code := BitVec.eq_of_toNat_eq (by have := eventCode_of_selects hs; omega)
    rw [← hcode, eventWord_eta]
  have hall {word : EventWord} {p : Nat} (hs : (TableRow.mk 40 p 0xFFFFFFFFFF).selects w.toNat = true)
      (hp : p = word.toNat) : w = word := BitVec.eq_of_toNat_eq ((toNat_of_selects hs).trans hp)
  simp only [tableRows, List.mem_cons, List.not_mem_nil, or_false] at hr
  obtain rfl | rfl | rfl | rfl | rfl | rfl | rfl | rfl | rfl := hr
  · cases hbits
  · cases hbits
  · exact ⟨.start (eventArg w), by rw [encode, ← hword h rfl], rfl⟩
  · exact ⟨.stop, by rw [encode, hall (word := eventWord codeStop 0) h rfl], rfl⟩
  · exact ⟨.complete (eventArg w), by rw [encode, ← hword h rfl], rfl⟩
  · exact ⟨.loadFail, by rw [encode, hall (word := eventWord codeLoadFail 0) h rfl], rfl⟩
  · exact ⟨.transmit (eventArg w), by rw [encode, ← hword h rfl], rfl⟩
  · exact ⟨.done (eventArg w), by rw [encode, ← hword h rfl], rfl⟩
  · exact ⟨.error (eventArg w), by rw [encode, ← hword h rfl], rfl⟩

/-- Settles O3: what decodes is the encoding of its instruction, which has the bits of its row; and the bits of a 40-bit
row leave the argument only, so that the word is the encoding of an instruction of the row. -/
theorem decoderFollowsTheOpcodeTable : Obligations.DecoderFollowsTheOpcodeTable := by
  refine ⟨fun t i h => encode_selects_row i t (encodeOfDecodeIsTheTransaction t i h), fun w r hr hbits h => ?_⟩
  obtain ⟨i, henc, hrow⟩ := encode_of_selects hr hbits h
  exact ⟨i, decode_of_encode_event henc, hrow⟩

/-- Settles O4: the seven words are encodings of the instructions named, and the two frame headers are evaluated. -/
theorem wordsOfTheSpecDecode : Obligations.WordsOfTheSpecDecode := by
  refine ⟨decode_of_encode_event rfl, decode_of_encode_event rfl, decode_of_encode_event rfl,
    decode_of_encode_event rfl, decode_of_encode_event rfl, decode_of_encode_event rfl, decode_of_encode_event rfl,
    ?_, ?_⟩
  · decide +kernel
  · decide +kernel

end Sys2Proof.Machine
end

section
/-! The invariant: it holds at reset, every input event of an invariant state answers an invariant state or a refusal, and
so no step faults (10_state.md R25 to R27, 42_sequencer.md R108, R126, 60_exceptions.md R137). -/

namespace Sys2Proof.Machine

/-! What a step takes from the two channels. -/

theorem eq_eventWord_of_decode_complete {w : EventWord} {n : Word32} (h : decode (.event w) = .ok (.complete n)) :
    w = eventWord codeComplete n := by
  cases encode_of_decodeEvent h
  rfl

/-- With an empty port an instruction comes from the head of the control channel, or is the COMPLETE at the head of the
completion channel; the rest is the state with that channel shortened (42_sequencer.md R105). -/
theorem fetch_input {s : State} {f : Fetched} {i : Instr} (hport : s.port = none) (hf : fetch s = some f)
    (hd : decode f.item = .ok i) (hc : f.source.carries i = true) :
    ∃ sched k,
      (∃ c cs, s.control = c :: cs ∧ ((∃ L, i = .start L) ∨ i = .stop ∨ i = .loadFail) ∧
        f.rest = { s with control := cs, presented := c.side, schedule := sched, draws := k }) ∨
      (∃ n ws, s.completion = eventWord codeComplete n :: ws ∧ i = .complete n ∧
        f.rest = { s with completion := ws, schedule := sched, draws := k }) := by
  obtain ⟨s', hs', ⟨c, cs, hcs, -, hsrc, -, hrest⟩ | ⟨w, ws, hws, hsrc, hitem, hrest⟩⟩ := fetch_cases hport hf
  · refine ⟨s'.schedule, s'.draws, .inl ⟨c, cs, hcs, control_carries (hsrc ▸ hc), ?_⟩⟩
    obtain rfl | rfl := hs' <;> exact hrest
  · obtain ⟨n, rfl⟩ := completion_carries (hsrc ▸ hc)
    obtain rfl := eq_eventWord_of_decode_complete (hitem ▸ hd)
    refine ⟨s'.schedule, s'.draws, .inr ⟨n, ws, hws, rfl, ?_⟩⟩
    obtain rfl | rfl := hs' <;> exact hrest

/-! The updates of the rules keep the invariant. -/

theorem inv_takeControl {s : State} {c : ControlItem} {cs : List ControlItem} (h : Inv s) (hcs : s.control = c :: cs)
    (sched : List Channel) (k : Nat) :
    Inv { s with control := cs, presented := c.side, schedule := sched, draws := k } :=
  { h with
    presented_wf := h.control_wf c (hcs ▸ .head cs)
    control_wf := fun d hd => h.control_wf d (hcs ▸ .tail c hd) }

theorem inv_takeCompletion {s : State} (h : Inv s) (ws : List EventWord) (sched : List Channel) (k : Nat) :
    Inv { s with completion := ws, schedule := sched, draws := k } :=
  { h with }

theorem inv_setIdle {s : State} (h : Inv s) : Inv (setIdle s) :=
  { h with sending_inFlight := nofun, src_len := nofun }

theorem setIdle_of_idle {s : State} (hs : s.status = .idle) : setIdle s = s := by
  rw [setIdle, ← hs]

/-- The end of a session, with or without an index to keep (42_sequencer.md R116, R119, R124). -/
theorem inv_idle_clearInFlight {s : State} (h : Inv s) : Inv (setIdle (clearInFlight s)) :=
  { h with sending_inFlight := nofun, src_len := nofun, index_inFlight := nofun }

theorem ErrorCode.bits_toNat_le (e : ErrorCode) : e.bits.toNat ≤ 4 := by
  cases e <;> decide

theorem inv_raise {s : State} (h : Inv s) (e : ErrorCode) : Inv (raise e s) :=
  { h with error_le := e.bits_toNat_le }

theorem inv_countPass {s : State} (h : Inv s) (hloop : s.endPolicy = .loop) : Inv (countPass s) :=
  { h with playCount_zero := fun hstop => nomatch hloop.symm.trans hstop }

/-- A session opened on a presented buffer that START accepts, once a frame is in flight (42_sequencer.md R110). -/
theorem inv_openSession {s : State} {L : Word32} (h : Inv s) (hp : s.presented.len = L.toNat) (hL : L.toNat ≤ maxLen) :
    Inv { openSession L s with inFlight := true } :=
  { h with
    sending_inFlight := fun _ => rfl
    srcLen_le := hL
    src_len := fun _ => hp
    index_le := Nat.zero_le _
    index_inFlight := fun _ => Nat.zero_le _
    error_le := ErrorCode.none.bits_toNat_le
    playCount_zero := fun _ => rfl
    src_wf := h.presented_wf }

/-- The lengths that START accepts have at most MAX_BLOCKS blocks (00_scope.md R10). -/
theorem blocks_le_of_inv {s : State} (h : Inv s) : s.blocks ≤ maxBlocks :=
  blocksOf_le h.srcLen_le

theorem toNat_ofNat_of_le {n m : Nat} (h : n ≤ 2 + m) (hm : m ≤ maxBlocks) : (BitVec.ofNat 32 n).toNat = n := by
  rw [BitVec.toNat_ofNat, Nat.mod_eq_of_lt]
  unfold maxBlocks at hm
  omega

theorem inv_dispatch {s : State} {index : Nat} (h : Inv s) (hi : index ≤ 1 + s.blocks) (F : List Byte) :
    Inv (dispatch index F s) :=
  have hindex : (BitVec.ofNat 32 index).toNat = index := toNat_ofNat_of_le (by omega) (blocks_le_of_inv h)
  { h with
    sending_inFlight := fun _ => rfl
    index_le := by rw [dispatch_frameIndex, dispatch_blocks, hindex]; omega
    index_inFlight := fun _ => by rw [dispatch_frameIndex, dispatch_blocks, hindex]; exact hi }

theorem inv_endSequence {s : State} {n : Word32} (h : Inv s) (hn : n.toNat = 2 + s.blocks) :
    Inv (endSequence n (clearInFlight s)) :=
  { h with sending_inFlight := nofun, src_len := nofun, index_le := hn.le, index_inFlight := nofun }

/-! What an input event answers in a state of the invariant. -/

/-- The COMPLETE of the frame in flight: cancelled while Idle, or one frame dispatched, with a pass counted or not, or the
end of the sequence. An index past the end is never reached (42_sequencer.md R126). -/
theorem sequencerStep_echo {s : State} {n : Word32} (h : Inv s) (hf : s.inFlight = true) (hn : n.toNat = s.expectedEcho) :
    (s.status = .idle ∧ sequencerStep n (clearInFlight s) = .ok (clearInFlight s)) ∨
    (∃ index F, index ≤ 1 + s.blocks ∧ sequencerStep n (clearInFlight s) = .ok (dispatch index F s)) ∨
    (∃ F, s.endPolicy = .loop ∧ 1 ≤ s.blocks ∧ sequencerStep n (clearInFlight s) = .ok (dispatch 2 F (countPass s))) ∨
    (n.toNat = 2 + s.blocks ∧ sequencerStep n (clearInFlight s) = .ok (endSequence n (clearInFlight s))) := by
  have hindex := h.index_inFlight hf
  obtain ⟨hs, hr⟩ | ⟨hs, hlt, hr⟩ | ⟨hs, h2, hblock, hr⟩ | ⟨hs, -, hloop, hblocks, hr⟩ | ⟨-, hend, -, hr⟩ | ⟨-, hpast, -⟩ :=
    sequencerStep_cases n (clearInFlight s)
  · exact .inl ⟨hs, hr⟩
  case inr.inl => exact .inr (.inl ⟨_, _, by omega, hr.trans (controlStep_eq _ (h.src_len hs))⟩)
  case inr.inr.inl =>
    refine .inr (.inl ⟨_, _, ?_, hr.trans (dataStep_eq (h.src_len hs) h.srcLen_le hblock)⟩)
    rw [clearInFlight_blocks] at hblock
    omega
  case inr.inr.inr.inl =>
    exact .inr (.inr (.inl ⟨_, hloop, hblocks, hr.trans (dataStep_eq (h.src_len hs) h.srcLen_le hblocks)⟩))
  case inr.inr.inr.inr.inl => exact .inr (.inr (.inr ⟨hend, hr⟩))
  case inr.inr.inr.inr.inr =>
    rw [clearInFlight_blocks, hn, State.expectedEcho] at hpast
    omega

theorem sequencerStep_echo_inv {s : State} {n : Word32} (h : Inv s) (hf : s.inFlight = true)
    (hn : n.toNat = s.expectedEcho) : ∃ t, sequencerStep n (clearInFlight s) = .ok t ∧ Inv t := by
  obtain ⟨hs, hr⟩ | ⟨index, F, hi, hr⟩ | ⟨F, hloop, hblocks, hr⟩ | ⟨hend, hr⟩ := sequencerStep_echo h hf hn
  · exact ⟨_, hr, setIdle_of_idle (s := clearInFlight s) hs ▸ inv_idle_clearInFlight h⟩
  · exact ⟨_, hr, inv_dispatch h hi F⟩
  · exact ⟨_, hr, inv_dispatch (inv_countPass h hloop) (by rw [countPass_blocks]; omega) F⟩
  · exact ⟨_, hr, inv_endSequence h hend⟩

theorem execComplete_inv {s : State} (n : Word32) (h : Inv s) : ∃ t, execComplete n s = .next t ∧ Inv t := by
  obtain ⟨-, hr⟩ | ⟨-, -, hr⟩ | ⟨hf, hn, hr⟩ := execComplete_cases n s
  · exact ⟨_, hr, inv_raise h _⟩
  · exact ⟨_, hr, inv_raise (inv_idle_clearInFlight h) _⟩
  · obtain ⟨t, ht, hinv⟩ := sequencerStep_echo_inv h hf hn
    exact ⟨t, by rw [hr, ht, outcomeOf_ok], hinv⟩

/-- An accepted START dispatches the control frame of the presented buffer (42_sequencer.md R110, R120). -/
theorem controlStep_openSession {s : State} {L : Word32} (hp : s.presented.len = L.toNat) :
    controlStep 0 (openSession L s) =
      .ok (dispatch 0 (buildControlFrame Config.providers (s.presented.bytes 0 L.toNat)) (openSession L s)) := by
  rw [← hp]
  exact controlStep_eq 0 hp

theorem execStart_inv {s : State} (L : Word32) (h : Inv s) :
    (∃ q, execStart L s = .refused q) ∨ ∃ t, execStart L s = .next t ∧ Inv t := by
  obtain ⟨-, hr⟩ | ⟨-, -, hr⟩ | ⟨-, -, -, hr⟩ | ⟨-, -, -, -, hr⟩ | ⟨hp, -, -, hL, hr⟩ := execStart_cases L s
  · exact .inl ⟨_, hr⟩
  case inr.inl => exact .inr ⟨_, hr, h⟩
  case inr.inr.inl => exact .inr ⟨_, hr, h⟩
  case inr.inr.inr.inl => exact .inr ⟨_, hr, inv_raise h _⟩
  case inr.inr.inr.inr =>
    have hlen := State.presents_iff.1 hp
    rw [controlStep_openSession hlen, outcomeOf_ok] at hr
    exact .inr ⟨_, hr, inv_dispatch (inv_openSession h hlen hL) (Nat.zero_le _) _⟩

/-- In a state of the invariant a step is refused or answers a state of the invariant: it never faults. -/
theorem step_inv {s : State} (h : Inv s) : (∃ q, step s = .refused q) ∨ ∃ t, step s = .next t ∧ Inv t := by
  have hs : ¬(s.status = .sending ∧ s.inFlight = false) := fun ⟨hsending, hf⟩ =>
    Bool.noConfusion (hf.symm.trans (h.sending_inFlight hsending))
  cases hf : fetch s with
  | none => exact .inr ⟨s, by simp only [step, if_neg hs, hf], h⟩
  | some f =>
    cases hi : interpret f.source f.item with
    | error q => exact .inl ⟨q, step_refused hs hf hi⟩
    | ok i =>
      obtain ⟨hd, hc⟩ := interpret_ok.1 hi
      rw [step_eq_exec hs hf hd hc]
      obtain ⟨sched, k, ⟨c, cs, hcs, hinput, hrest⟩ | ⟨n, ws, -, rfl, hrest⟩⟩ := fetch_input h.port_empty hf hd hc
      · have hinv : Inv f.rest := hrest ▸ inv_takeControl h hcs sched k
        obtain ⟨L, rfl⟩ | rfl | rfl := hinput
        · exact execStart_inv L hinv
        · exact .inr ⟨_, exec_stop _, inv_setIdle hinv⟩
        · exact .inr ⟨_, exec_loadFail _, inv_raise hinv _⟩
      · exact .inr (execComplete_inv n (hrest ▸ inv_takeCompletion h ws sched k))

/-- Settles O54: no buffer is owned after reset, and every register is 0. -/
theorem invariantHoldsAtReset : Obligations.InvariantHoldsAtReset := fun p =>
  { sending_inFlight := nofun
    srcLen_le := Nat.zero_le _
    src_len := nofun
    index_le := Nat.zero_le _
    index_inFlight := nofun
    error_le := Nat.zero_le _
    playCount_zero := fun _ => rfl
    src_wf := (reset_memory_wf p).1
    presented_wf := (reset_memory_wf p).2
    control_wf := nofun
    port_empty := rfl }

/-- Settles O55: what a step takes keeps the invariant, and so does every update of the rules that then runs. -/
theorem everyStepKeepsTheInvariant : Obligations.EveryStepKeepsTheInvariant := by
  intro s t h hstep
  obtain ⟨q, hq⟩ | ⟨u, hu, hinv⟩ := step_inv h
  · cases hstep.symm.trans hq
  · cases hstep.symm.trans hu
    exact hinv

/-- Settles O56: in a state of the invariant the frame in flight has an index at which step(index) answers, and the
buffer has the bytes it reads. -/
theorem noStepFaultsUnderTheInvariant : Obligations.NoStepFaultsUnderTheInvariant := by
  intro s x h hstep
  obtain ⟨q, hq⟩ | ⟨t, ht, -⟩ := step_inv h
  · cases hstep.symm.trans hq
  · cases hstep.symm.trans ht

end Sys2Proof.Machine
end

section
/-! The handshake with an honest ChannelDriver: one frame in flight and one right echo due, or neither (20_memory.md R52,
70_reset_and_hazards.md R151). -/

namespace Sys2Proof.Machine

theorem handshake_iff_of_idle {s : State} (hf : s.inFlight = false) :
    Handshake s ↔ s.playing = [] ∧ s.completion = [] := by
  simp [Handshake, hf]

theorem handshake_iff_of_inFlight {s : State} (hf : s.inFlight = true) :
    Handshake s ↔ ∃ next : Word32, next.toNat = s.expectedEcho ∧
      ((∃ F, s.playing = [⟨F, next⟩] ∧ s.completion = []) ∨
       (s.playing = [] ∧ s.completion = [eventWord codeComplete next])) := by
  rw [Handshake, if_pos hf]

theorem eventWord_inj {code : Byte} {n m : Word32} (h : eventWord code n = eventWord code m) : n = m := by
  rw [← eventArg_eventWord code n, h, eventArg_eventWord]

/-- A COMPLETE that waits is the one echo due, and it is right. -/
theorem handshake_complete {s : State} {n : Word32} {ws : List EventWord} (h : Handshake s)
    (hw : s.completion = eventWord codeComplete n :: ws) :
    s.inFlight = true ∧ n.toNat = s.expectedEcho ∧ s.playing = [] ∧ ws = [] := by
  cases hf : s.inFlight with
  | false => cases hw.symm.trans ((handshake_iff_of_idle hf).1 h).2
  | true =>
    obtain ⟨next, hecho, ⟨F, -, hnil⟩ | ⟨hplaying, hone⟩⟩ := (handshake_iff_of_inFlight hf).1 h
    · cases hw.symm.trans hnil
    · obtain ⟨hword, rfl⟩ := List.cons.inj (hw.symm.trans hone)
      exact ⟨rfl, eventWord_inj hword ▸ hecho, hplaying, rfl⟩

/-- A frame in playback is the one frame in flight, and its echo will be right. -/
theorem handshake_playing {s : State} {p : Playback} {ps : List Playback} (h : Handshake s) (hp : s.playing = p :: ps) :
    s.inFlight = true ∧ p.next.toNat = s.expectedEcho ∧ ps = [] ∧ s.completion = [] := by
  cases hf : s.inFlight with
  | false => cases hp.symm.trans ((handshake_iff_of_idle hf).1 h).1
  | true =>
    obtain ⟨next, hecho, ⟨F, hone, hnil⟩ | ⟨hnil, -⟩⟩ := (handshake_iff_of_inFlight hf).1 h
    · obtain ⟨rfl, rfl⟩ := List.cons.inj (hp.symm.trans hone)
      exact ⟨rfl, hecho, rfl, hnil⟩
    · cases hp.symm.trans hnil

/-- A dispatch hands the driver its one frame, with the index to echo. -/
theorem handshake_dispatch {s : State} {index : Nat} (hi : index ≤ 1 + maxBlocks) (hp : s.playing = [])
    (hc : s.completion = []) (F : List Byte) : Handshake (dispatch index F s) := by
  have hindex : (BitVec.ofNat 32 index).toNat = index := toNat_ofNat_of_le (by omega) (le_refl maxBlocks)
  have hnext : (BitVec.ofNat 32 (index + 1)).toNat = index + 1 := toNat_ofNat_of_le (by omega) (le_refl maxBlocks)
  refine (handshake_iff_of_inFlight rfl).2 ⟨BitVec.ofNat 32 (index + 1), ?_, .inl ⟨F, ?_, hc⟩⟩
  · rw [hnext, State.expectedEcho, dispatch_frameIndex, hindex]
  · rw [dispatch_playing, hp, List.nil_append]

/-- From the outputs `before` to the outputs `after` at most one event is emitted, and it is no completion error. -/
def EmitsNoCompletionError (before after : List Output) : Prop :=
  after = before ∨ ∃ o, after = before ++ [o] ∧ o ≠ .error 3 ∧ o ≠ .error 4

theorem EmitsNoCompletionError.refl (os : List Output) : EmitsNoCompletionError os os := .inl rfl

theorem EmitsNoCompletionError.transmit (os : List Output) (F : List Byte) (next : Word32) :
    EmitsNoCompletionError os (os ++ [.transmit F next]) := .inr ⟨_, rfl, nofun, nofun⟩

theorem EmitsNoCompletionError.done (os : List Output) (endIndex : Word32) :
    EmitsNoCompletionError os (os ++ [.done endIndex]) := .inr ⟨_, rfl, nofun, nofun⟩

theorem execStart_handshake {L : Word32} {s t : State} (h : Handshake s) (ht : execStart L s = .next t) :
    Handshake t ∧ EmitsNoCompletionError s.outputs t.outputs := by
  obtain ⟨-, hr⟩ | ⟨-, -, hr⟩ | ⟨-, -, -, hr⟩ | ⟨-, -, -, -, hr⟩ | ⟨hp, -, hf, -, hr⟩ := execStart_cases L s
  all_goals rw [hr] at ht
  · cases ht
  case inr.inl => cases ht; exact ⟨h, .refl _⟩
  case inr.inr.inl => cases ht; exact ⟨h, .refl _⟩
  case inr.inr.inr.inl => cases ht; exact ⟨h, .inr ⟨_, rfl, by decide, by decide⟩⟩
  case inr.inr.inr.inr =>
    rw [controlStep_openSession (State.presents_iff.1 hp)] at ht
    cases ht
    obtain ⟨hplaying, hcompletion⟩ := (handshake_iff_of_idle hf).1 h
    exact ⟨handshake_dispatch (Nat.zero_le _) hplaying hcompletion _, .transmit _ _ _⟩

/-- COMPLETE with the right echo clears `inFlight` and runs step(n) (42_sequencer.md R116). -/
theorem execComplete_of_echo {n : Word32} {s : State} (hf : s.inFlight = true) (hn : n.toNat = s.expectedEcho) :
    execComplete n s = outcomeOf (sequencerStep n (clearInFlight s)) := by
  rw [execComplete, if_neg (by simp [hf]), if_neg (not_not.2 hn)]

/-- The one echo due is consumed: another frame is handed out, or nothing is in flight any more. -/
theorem execComplete_handshake {n : Word32} {s t : State} (h : Inv s) (hf : s.inFlight = true)
    (hn : n.toNat = s.expectedEcho) (hp : s.playing = []) (hc : s.completion = []) (ht : execComplete n s = .next t) :
    Handshake t ∧ EmitsNoCompletionError s.outputs t.outputs := by
  have hblocks := blocks_le_of_inv h
  rw [execComplete_of_echo hf hn] at ht
  obtain ⟨-, hr⟩ | ⟨index, F, hi, hr⟩ | ⟨F, -, -, hr⟩ | ⟨-, hr⟩ := sequencerStep_echo h hf hn
  all_goals
    rw [hr] at ht
    cases ht
  · exact ⟨(handshake_iff_of_idle rfl).2 ⟨hp, hc⟩, .refl _⟩
  · exact ⟨handshake_dispatch (by omega) hp hc F, .transmit _ _ _⟩
  · exact ⟨handshake_dispatch (by decide) hp hc F, .transmit _ _ _⟩
  · exact ⟨(handshake_iff_of_idle rfl).2 ⟨hp, hc⟩, .done _ _⟩

theorem step_handshake {s t : State} (h : Inv s) (hh : Handshake s) (ht : step s = .next t) :
    Handshake t ∧ EmitsNoCompletionError s.outputs t.outputs := by
  obtain ⟨-, ⟨-, rfl⟩ | ⟨f, i, hf, hd, hc, hexec⟩⟩ := step_next ht
  · exact ⟨hh, .refl _⟩
  obtain ⟨sched, k, ⟨c, cs, -, hinput, hrest⟩ | ⟨n, ws, hw, rfl, hrest⟩⟩ := fetch_input h.port_empty hf hd hc
  · have houtputs : f.rest.outputs = s.outputs := by rw [hrest]
    have hkept : Handshake f.rest := by rw [hrest]; exact hh
    rw [← houtputs]
    obtain ⟨L, rfl⟩ | rfl | rfl := hinput
    · exact execStart_handshake hkept hexec
    · cases hexec; exact ⟨hkept, .refl _⟩
    · cases hexec; exact ⟨hkept, .inr ⟨_, rfl, by decide, by decide⟩⟩
  · obtain ⟨hfl, hecho, hplaying, rfl⟩ := handshake_complete hh hw
    rw [hrest] at hexec
    exact execComplete_handshake (s := { s with completion := [], schedule := sched, draws := k })
      (inv_takeCompletion h [] sched k) hfl hecho hplaying rfl hexec

/-- The driver's own move finishes the frame in flight and sends its echo (70_reset_and_hazards.md R151). -/
theorem driverFinish_handshake {s t : State} (h : Inv s) (hh : Handshake s) (ht : driverFinish s = some t) :
    Inv t ∧ Handshake t := by
  cases hp : s.playing with
  | nil => simp [driverFinish, hp] at ht
  | cons p ps =>
    simp only [driverFinish, hp, Option.some.injEq] at ht
    obtain ⟨hf, hecho, rfl, hc⟩ := handshake_playing hh hp
    subst ht
    refine ⟨{ h with }, ?_⟩
    rw [handshake_iff_of_inFlight (by exact hf)]
    refine ⟨p.next, hecho, .inr ⟨rfl, ?_⟩⟩
    rw [postCompletion_completion, hc, List.nil_append]

/-- Settles O57: an honest driver's only echo is that of the frame in flight, so a COMPLETE is neither spurious nor
mismatched; what it runs dispatches one frame or none. -/
theorem anHonestDriverKeepsTheHandshake : Obligations.AnHonestDriverKeepsTheHandshake :=
  ⟨fun _ _ h hh ht => step_handshake h hh ht, fun _ _ h hh ht => driverFinish_handshake h hh ht⟩

end Sys2Proof.Machine
end

section
/-! The striping lane by lane, and the fields and checks of the frames the encoder builds (40_frame_encoder.md R84 to R90,
41_hash_integration.md R100 to R103). -/

namespace Sys2Proof.Machine

/-! Striping. -/

theorem stripeByte_of_mod14 {n p : Nat} (b : Byte) (h8 : 8 ≤ p) (hn : p < n - 5) (hp : p % 16 = 14) :
    stripeByte n p b = b ^^^ stripeA := by
  rw [stripeByte, if_pos ⟨h8, hn⟩, if_pos hp]

theorem stripeByte_of_mod6 {n p : Nat} (b : Byte) (h8 : 8 ≤ p) (hn : p < n - 5) (hp : p % 16 = 6) :
    stripeByte n p b = b ^^^ stripeB := by
  rw [stripeByte, if_pos ⟨h8, hn⟩, if_neg (by omega), if_pos hp]

theorem stripeByte_of_other (n : Nat) {p : Nat} (b : Byte) (h14 : p % 16 ≠ 14) (h6 : p % 16 ≠ 6) :
    stripeByte n p b = b := by
  rw [stripeByte, if_neg h14, if_neg h6, ite_self]

/-- Inside the striped range the mask has period 16 (40_frame_encoder.md R86). -/
theorem stripeByte_add_period {n p : Nat} (m : Nat) (b : Byte) (h8 : 8 ≤ p) (hn : p + 16 * m < n - 5) :
    stripeByte n (p + 16 * m) b = stripeByte n p b := by
  have hin : 8 ≤ p ∧ p < n - 5 := ⟨h8, by omega⟩
  have hin' : 8 ≤ p + 16 * m ∧ p + 16 * m < n - 5 := ⟨by omega, hn⟩
  simp only [stripeByte, if_pos hin, if_pos hin', Nat.add_mul_mod_self_left]

theorem mem_lanes_iff {a p : Nat} :
    p ∈ (List.range 16).map (a + 16 * ·) ↔ a ≤ p ∧ p < a + 256 ∧ p % 16 = a % 16 := by
  simp only [List.mem_map, List.mem_range]
  constructor
  · rintro ⟨j, hj, rfl⟩
    omega
  · intro h
    exact ⟨(p - a) / 16, by omega, by omega⟩

/-- Settles O13. -/
theorem stripeTwiceIsIdentity : Obligations.StripeTwiceIsIdentity := stripe_stripe

/-- Settles O14: the listed positions are those from 14 and from 22 on in steps of 16, which are the lanes of the two
masks. -/
theorem stripeIsLanewiseXor : Obligations.StripeIsLanewiseXor := by
  unfold Obligations.StripeIsLanewiseXor
  intro atA atB
  have hA : atA = (List.range 16).map (14 + 16 * ·) := rfl
  have hB : atB = (List.range 16).map (22 + 16 * ·) := rfl
  refine ⟨?_, fun F hlen => ⟨(stripe_length F).trans hlen, fun p b hp => ?_⟩⟩
  · intro p hp
    rw [hA, hB, List.mem_append, mem_lanes_iff, mem_lanes_iff] at hp
    omega
  · rw [stripe_getElem?, hp, hlen, Option.map_some, hA, hB]
    simp only [mem_lanes_iff]
    congr 1
    by_cases h14 : 14 ≤ p ∧ p < 14 + 256 ∧ p % 16 = 14 % 16
    · rw [if_pos h14, stripeByte_of_mod14 b (by omega) (by omega) h14.2.2, stripeA]
    · rw [if_neg h14]
      by_cases h6 : 22 ≤ p ∧ p < 22 + 256 ∧ p % 16 = 22 % 16
      · rw [if_pos h6, stripeByte_of_mod6 b (by omega) (by omega) h6.2.2, stripeB]
      · rw [if_neg h6, show b ^^^ (0x00 : Byte) = b from BitVec.xor_zero, stripeByte]
        split
        · rw [if_neg (by omega), if_neg (by omega)]
        · rfl

/-! Slices. -/

theorem slice_getElem? (S : List Byte) (a b q : Nat) : (slice S a b)[q]? = if q < b - a then S[a + q]? else none := by
  rw [slice, List.getElem?_take, List.getElem?_drop]

/-- A slice with none of the two masks' lanes is sent as assembled. -/
theorem slice_stripe_of_unmasked {F : List Byte} {a b : Nat}
    (h : ∀ p, a ≤ p → p < b → p % 16 ≠ 14 ∧ p % 16 ≠ 6) : slice (stripe F) a b = slice F a b := by
  apply List.ext_getElem?
  intro q
  rw [slice_getElem?, slice_getElem?]
  split
  · next hq =>
    obtain ⟨h14, h6⟩ := h (a + q) (by omega) (by omega)
    rw [stripe_getElem?]
    cases F[a + q]? with
    | none => rfl
    | some b => exact congrArg some (stripeByte_of_other _ b h14 h6)
  · rfl

/-- A byte's change shows in a slice exactly where the slice has the byte and the value is another. -/
theorem slice_set_eq_iff {F : List Byte} {p a c : Nat} {b : Byte} (hc : c ≤ F.length) :
    slice (F.set p b) a c = slice F a c ↔ ¬(a ≤ p ∧ p < c) ∨ F[p]? = some b := by
  constructor
  · intro h
    by_cases hp : a ≤ p ∧ p < c
    · have hq := congrArg (·[p - a]?) h
      simp only [slice_getElem?, if_pos (show p - a < c - a by omega), Nat.add_sub_cancel' hp.1] at hq
      rw [List.getElem?_set_self (by omega)] at hq
      exact .inr hq.symm
    · exact .inl hp
  · rintro (hp | hb)
    · apply List.ext_getElem?
      intro q
      rw [slice_getElem?, slice_getElem?]
      split
      · rw [List.getElem?_set_ne (by omega)]
      · rfl
    · obtain ⟨hp, rfl⟩ := List.getElem?_eq_some_iff.1 hb
      rw [List.set_getElem_self]

theorem controlCoverage_eq_headerHash_iff {p : Nat} : controlCoverage p = .headerHash ↔ 12 ≤ p ∧ p < 32 := by
  unfold controlCoverage
  split
  · next h => exact iff_of_true rfl h
  · next h => split <;> exact iff_of_false nofun h

theorem dataCoverage_eq_blockHash_iff {p : Nat} : dataCoverage p = .blockHash ↔ 7 ≤ p ∧ p < 266 := by
  unfold dataCoverage
  split
  · next h => exact iff_of_true rfl h
  · next h => split <;> exact iff_of_false nofun h

/-- Settles O16: each hash covers one slice of its frame, and the map names the bytes of that slice. -/
theorem hashCoverageMap : Obligations.HashCoverageMap := by
  refine ⟨fun F p b hF => ?_, fun U p b hU => ?_⟩
  · rw [slice_set_eq_iff (by omega), ne_eq, controlCoverage_eq_headerHash_iff]
  · rw [slice_set_eq_iff (by omega), ne_eq, dataCoverage_eq_blockHash_iff]

/-! The fields of the frames. -/

theorem fromLe_le4 (v : Word32) : fromLe (le 4 v.toNat) = v.toNat :=
  (fromLe_le 4 _).trans (Nat.mod_eq_of_lt v.isLt)

theorem fromLe_le2 (v : BitVec 16) : fromLe (le 2 v.toNat) = v.toNat :=
  (fromLe_le 2 _).trans (Nat.mod_eq_of_lt v.isLt)

/-- Settles O9: every field of the frame is read back at its place, and the length field holds the buffer's length. -/
theorem controlFrameChecks : Obligations.ControlFrameChecks := by
  intro H B hB F
  have hd : (controlFieldsFor H B).contentDigest.length = 16 := contentDigest_length H B
  refine ⟨?_, ?_, controlBytes_type _, controlBytes_terminator hd, ?_, ?_, controlBytes_slice_contentDigest hd⟩
  · exact (controlBytes_length _).trans (by rw [hd])
  · rw [buildControlFrame_slice_headerHashInput]
    exact (congrArg fromLe (controlBytes_slice_headerHash hd)).trans (fromLe_le4 _)
  · exact (congrArg fromLe (controlBytes_slice_length _)).trans
      ((fromLe_le4 _).trans (controlFieldsFor_length_toNat H hB))
  · exact (congrArg fromLe (controlBytes_slice_contentHash _)).trans (fromLe_le4 _)

theorem buildDataFrame_length (H : Providers) {C : List Byte} (k : BitVec 16) (h : C.length ≤ 256) :
    (buildDataFrame H C k).length = 271 :=
  (dataBytes_length _).trans (congrArg (15 + ·) (padChunk_length h))

/-- Un-striped, the frame has the bytes of its fields (40_frame_encoder.md R89). -/
theorem stripe_buildDataFrame (H : Providers) (C : List Byte) (k : BitVec 16) :
    stripe (buildDataFrame H C k) = assembledBytes (dataFieldsFor H C k) :=
  stripe_dataBytes _

/-- The chunk stands first in the payload, its padding after it (40_frame_encoder.md R83). -/
theorem assembledBytes_dataFieldsFor_slices (H : Providers) {C : List Byte} (k : BitVec 16) (h : C.length ≤ 256) :
    slice (assembledBytes (dataFieldsFor H C k)) 10 (10 + C.length) = C ∧
    slice (assembledBytes (dataFieldsFor H C k)) (10 + C.length) 266 = rep (256 - C.length) padByte := by
  have hsplit : assembledBytes (dataFieldsFor H C k) =
      (preamble ++ [dataVersion] ++ le 2 k.toNat) ++ C ++ (rep (256 - C.length) padByte ++
        le 4 (dataFieldsFor H C k).blockHash.toNat ++ [terminatorByte]) := by
    simp only [assembledBytes, blockHashInput, dataFieldsFor, padChunk, chunkSize, List.append_assoc]
  constructor
  · rw [hsplit]
    exact slice_append_middle _ _ _ (by simp) rfl
  · rw [hsplit, List.append_assoc (rep _ _), ← List.append_assoc (_ ++ C)]
    exact slice_append_middle _ _ _ (by simp; omega) (by simp; omega)

/-- Settles O12: as sent, the version, the block number and the terminator stand outside the masks' lanes; un-striped,
every field stands where it was assembled. -/
theorem dataFrameFields : Obligations.DataFrameFields := by
  intro H C k _ hle G U
  have hpayload : (dataFieldsFor H C k).payload.length = 256 := padChunk_length hle
  have hU : U = assembledBytes (dataFieldsFor H C k) := stripe_buildDataFrame H C k
  have hnumber : fromLe (slice U 8 10) = k.toNat := by
    rw [hU, assembledBytes_slice_blockNumber]
    exact fromLe_le2 k
  have hnumberSent : slice G 8 10 = slice U 8 10 := (slice_stripe_of_unmasked (by omega)).symm
  have hend : G[270]? = some terminatorByte := by
    have hG : G = stripe U := (stripe_stripe G).symm
    rw [hG, stripe_getElem?_outside (.inr (by rw [hU, assembledBytes_length, hpayload]; decide)), hU,
      assembledBytes_terminator hpayload]
    rfl
  obtain ⟨hchunk, hpad⟩ := assembledBytes_dataFieldsFor_slices H k hle
  refine ⟨buildDataFrame_length H k hle, dataBytes_type _, hnumberSent ▸ hnumber, hend, ?_, hU ▸ assembledBytes_type _,
    hnumber, hU ▸ hchunk, hU ▸ hpad⟩
  rw [buildDataFrame_slice_blockHashInput H k hle, hU, assembledBytes_slice_blockHash hpayload]
  exact fromLe_le4 _

/-! The payload as sent. -/

theorem padChunk_getElem?_chunk {C : List Byte} {j : Nat} (h : j < C.length) : (padChunk C)[j]? = C[j]? :=
  List.getElem?_append_left h

theorem padChunk_getElem?_padding {C : List Byte} {j : Nat} (h : C.length ≤ j) (hj : j < 256) :
    (padChunk C)[j]? = some padByte := by
  rw [padChunk, List.getElem?_append_right h, rep, List.getElem?_replicate, if_pos (by rw [chunkSize]; omega)]

/-- A byte of the payload is sent at its offset from 10, striped in its own lane. -/
theorem buildDataFrame_getElem?_payload (H : Providers) {C : List Byte} (k : BitVec 16) (h : C.length ≤ 256) {j : Nat}
    (hj : j < 256) : (buildDataFrame H C k)[10 + j]? = ((padChunk C)[j]?).map (stripeByte 271 (10 + j)) := by
  have hpayload : (dataFieldsFor H C k).payload.length = 256 := padChunk_length h
  have hbyte : (assembledBytes (dataFieldsFor H C k))[10 + j]? = (padChunk C)[j]? := by
    have hslice := congrArg (·[j]?) (assembledBytes_slice_payload hpayload)
    simp only [slice_getElem?, if_pos (show j < 266 - 10 by omega)] at hslice
    exact hslice
  rw [buildDataFrame, dataBytes, stripe_getElem?, hbyte, assembledBytes_length, hpayload]

theorem buildDataFrame_getElem?_padding (H : Providers) {C : List Byte} (k : BitVec 16) (h : C.length ≤ 256) {j : Nat}
    (hpad : C.length ≤ j) (hj : j < 256) :
    (buildDataFrame H C k)[10 + j]? = some (stripeByte 271 (10 + j) padByte) := by
  rw [buildDataFrame_getElem?_payload H k h hj, padChunk_getElem?_padding hpad hj, Option.map_some]

theorem buildDataFrame_getElem?_chunk (H : Providers) {C : List Byte} (k : BitVec 16) (h : C.length ≤ 256) {j : Nat}
    {b : Byte} (hb : C[j]? = some b) : j < 256 ∧ (buildDataFrame H C k)[10 + j]? = some (stripeByte 271 (10 + j) b) := by
  obtain ⟨hj, -⟩ := List.getElem?_eq_some_iff.1 hb
  refine ⟨by omega, ?_⟩
  rw [buildDataFrame_getElem?_payload H k h (by omega), padChunk_getElem?_chunk hj, hb, Option.map_some]

/-- Each period of payload that is all padding is sent as the same 16 bytes. -/
theorem buildDataFrame_slice_padding (H : Providers) {C : List Byte} (k : BitVec 16) (h : C.length ≤ 256) {m : Nat}
    (hm : m < 16) (hpad : C.length ≤ 16 * m) :
    slice (buildDataFrame H C k) (10 + 16 * m) (26 + 16 * m) =
      (List.range 16).map fun q => stripeByte 271 (10 + q) padByte := by
  apply List.ext_getElem?
  intro q
  rw [slice_getElem?, List.getElem?_map]
  by_cases hq : q < 16
  · rw [if_pos (by omega), List.getElem?_range hq, Option.map_some, show 10 + 16 * m + q = 10 + (16 * m + q) by omega,
      buildDataFrame_getElem?_padding H k h (by omega) (by omega), show 10 + (16 * m + q) = 10 + q + 16 * m by omega,
      stripeByte_add_period m _ (by omega) (by omega)]
  · rw [if_neg (by omega), List.getElem?_eq_none (by rw [List.length_range]; omega), Option.map_none]

/-- Settles O15: a payload byte is XORed with the mask of its lane, and the two masks turn padding into their
complements; a chunk byte equal to the complement becomes `0xFF`. -/
theorem paddingBreaksRunsOfOnes : Obligations.PaddingBreaksRunsOfOnes := by
  intro H C k _ hle G
  refine ⟨fun p hp hlt => ?_, fun m hm hpad => ?_, fun j => ⟨fun hj hb => ?_, fun hj hb => ?_⟩⟩
  · have hbyte := buildDataFrame_getElem?_padding H k hle (j := p - 10) (by omega) (by omega)
    rw [show 10 + (p - 10) = p by omega] at hbyte
    constructor
    · intro h14
      exact hbyte.trans (congrArg some (stripeByte_of_mod14 _ (by omega) (by omega) h14))
    · intro h6
      exact hbyte.trans (congrArg some (stripeByte_of_mod6 _ (by omega) (by omega) h6))
  · rw [buildDataFrame_slice_padding H k hle hm hpad]
    decide
  · obtain ⟨hlt, hbyte⟩ := buildDataFrame_getElem?_chunk H k hle hb
    exact hbyte.trans (congrArg some (stripeByte_of_mod14 _ (by omega) (by omega) (by omega)))
  · obtain ⟨hlt, hbyte⟩ := buildDataFrame_getElem?_chunk H k hle hb
    exact hbyte.trans (congrArg some (stripeByte_of_mod6 _ (by omega) (by omega) (by omega)))

end Sys2Proof.Machine
end

section
/-! The encoder's operations and the frame formats run by themselves: each leaves its bytes in the frame space, and stops
outside its precondition (30_encoding.md R57, R60; 40_frame_encoder.md R75 to R85; log 9, log 12). -/

namespace Sys2Proof.Machine

/-! The meaning of each of these rows, in terms of the bytes it computes. -/

theorem exec_controlFrame (f : ControlFields) (s : State) :
    exec (.controlFrame f) s = .next { s with work := controlBytes f } := rfl

theorem exec_dataFrame (f : DataFields) (s : State) :
    exec (.dataFrame f) s = .next { s with work := dataBytes f } := rfl

theorem leaveResult_ok (F : List Byte) (s : State) : leaveResult (.ok F) s = .next { s with work := F } := rfl

theorem leaveResult_error (f : Fault) (s : State) : leaveResult (.error f) s = .fault f := rfl

theorem exec_buildControlFrame {B : List Byte} (h : B.length < 2 ^ 32) (s : State) :
    exec (.buildControlFrame B) s = .next { s with work := buildControlFrame Config.providers B } := by
  rw [exec, execBuildControlFrame, callBuildControlFrame, if_pos h, leaveResult_ok]

theorem exec_buildControlFrame_fault {B : List Byte} (h : 2 ^ 32 ≤ B.length) (s : State) :
    exec (.buildControlFrame B) s = .fault .encoderPrecondition := by
  rw [exec, execBuildControlFrame, callBuildControlFrame, if_neg (by omega), leaveResult_error]

theorem exec_buildDataFrame {C : List Byte} {k : Nat} (hC : chunkOk C = true) (hk : k < maxBlocks) (s : State) :
    exec (.buildDataFrame C k) s = .next { s with work := buildDataFrame Config.providers C (BitVec.ofNat 16 k) } := by
  rw [exec, execBuildDataFrame, callBuildDataFrame, if_pos ⟨hC, hk⟩, leaveResult_ok]

theorem exec_buildDataFrame_fault {C : List Byte} {k : Nat} (h : ¬(chunkOk C = true ∧ k < maxBlocks)) (s : State) :
    exec (.buildDataFrame C k) s = .fault .encoderPrecondition := by
  rw [exec, execBuildDataFrame, callBuildDataFrame, if_neg h, leaveResult_error]

theorem exec_pad {C : List Byte} (h : chunkOk C = true) (s : State) :
    exec (.pad C) s = .next { s with work := padChunk C } := by
  rw [exec, execPad, if_pos h, leaveResult_ok]

theorem exec_pad_fault {C : List Byte} (h : ¬chunkOk C = true) (s : State) :
    exec (.pad C) s = .fault .encoderPrecondition := by
  rw [exec, execPad, if_neg h, leaveResult_error]

theorem exec_stripe {F : List Byte} (h : F.length = dataLen) (s : State) :
    exec (.stripe F) s = .next { s with work := stripe F } := by
  rw [exec, execStripe, if_pos h, leaveResult_ok]

theorem exec_stripe_fault {F : List Byte} (h : F.length ≠ dataLen) (s : State) :
    exec (.stripe F) s = .fault .encoderPrecondition := by
  rw [exec, execStripe, if_neg h, leaveResult_error]

/-- Settles O20: the frame space holds the bytes of the formats, the DataFrame's striped. -/
theorem frameRowsLayOutTheirBytes : Obligations.FrameRowsLayOutTheirBytes := by
  refine ⟨fun f s hf => ⟨controlBytes f, exec_controlFrame f s, ?_, rfl⟩,
    fun f s hf => ⟨dataBytes f, exec_dataFrame f s, ?_, ?_⟩⟩
  · rw [controlBytes_length, hf]
  · rw [dataBytes_length, hf]
  · rw [stripe_dataBytes]
    simp only [assembledBytes, blockHashInput, preamble, dataVersion, List.append_assoc, List.cons_append,
      List.nil_append]

/-- Settles O21: below 2^32 bytes the frame has the layout of R77, with the platform's providers. -/
theorem buildControlFrameCompletes : Obligations.BuildControlFrameCompletes := by
  intro B s h1 d F
  refine ⟨fun h => ?_, fun h => exec_buildControlFrame_fault h s⟩
  rw [exec_buildControlFrame h, buildControlFrame_eq _ h]
  rfl

/-- Settles O22: the precondition is that of the statement, and the block number fits its 16 bits. -/
theorem buildDataFrameCompletes : Obligations.BuildDataFrameCompletes := by
  intro C k s covered F
  refine ⟨fun h0 hC hk => ?_, fun h => exec_buildDataFrame_fault ?_ s⟩
  · have hnumber : (BitVec.ofNat 16 k).toNat = k := Nat.mod_eq_of_lt hk
    rw [exec_buildDataFrame (chunkOk_iff.2 ⟨h0, hC⟩) hk, buildDataFrame_eq, hnumber]
    rfl
  · rw [chunkOk_iff, maxBlocks]
    omega

/-- Settles O23: within the precondition the padding fills the payload. -/
theorem padCompletes : Obligations.PadCompletes := by
  intro C s
  refine ⟨fun h0 hC => ⟨padChunk C, exec_pad (chunkOk_iff.2 ⟨h0, hC⟩) s, padChunk_length hC, List.take_left' rfl,
    fun j => padChunk_getElem?_padding⟩, fun h => exec_pad_fault ?_ s⟩
  rw [chunkOk_iff]
  omega

/-- Settles O24: each byte of the striped frame is its own lane of the frame before. -/
theorem stripeRowCompletes : Obligations.StripeRowCompletes := by
  refine fun F s => ⟨fun hF => ⟨stripe F, exec_stripe hF s, (stripe_length F).trans hF, fun p b hp => ?_⟩,
    fun hF => exec_stripe_fault hF s⟩
  have hbyte : (stripe F)[p]? = some (stripeByte 271 p b) := by rw [stripe_getElem?, hp, hF, Option.map_some]
  refine ⟨fun h8 hlt h14 => ?_, fun h8 hlt h6 => ?_, fun h => ?_⟩
  · exact hbyte.trans (congrArg some (stripeByte_of_mod14 b h8 hlt h14))
  · exact hbyte.trans (congrArg some (stripeByte_of_mod6 b h8 hlt h6))
  · obtain h | h | ⟨h14, h6⟩ := h
    · exact hbyte.trans (congrArg some (stripeByte_outside _ _ b (.inl h)))
    · exact hbyte.trans (congrArg some (stripeByte_outside _ _ b (.inr (by omega))))
    · exact hbyte.trans (congrArg some (stripeByte_of_other _ b h14 h6))

end Sys2Proof.Machine
end

section
/-! The blocks and the chunks of a buffer, and the canonical form of a byte space (42_sequencer.md R106, R122;
20_memory.md R37, R40; log 14). -/

namespace Sys2Proof.Machine

/-! Blocks and chunks. -/

theorem blocksOf_le_iff (L n : Nat) : blocksOf L ≤ n ↔ L ≤ 256 * n := by
  unfold blocksOf
  omega

theorem chunkLength_of_not_final {L i : Nat} (h : i + 1 < blocksOf L) : chunkLength L i = 256 := if_pos h

theorem chunkLength_of_final {L i : Nat} (h : i + 1 = blocksOf L) : chunkLength L i = L - 256 * i := if_neg (by omega)

/-- Settles O18: only the final block has less than 256 bytes left, and it has at least one. -/
theorem chunkLengths : Obligations.ChunkLengths := by
  intro L i hi
  obtain ⟨hin, hpos, hle⟩ := chunkLength_bounds hi
  refine ⟨chunkLength_of_not_final, fun hfinal => ?_, hpos, hle, hin⟩
  have hlen := chunkLength_of_final hfinal
  have hi' : blocksOf L - 1 = i := by omega
  refine ⟨by rw [hi', hlen], ?_⟩
  unfold blocksOf at hfinal
  omega

/-- Settles O19: the count is the least integer not below a 256th of the length, by the arithmetic of its quotient. -/
theorem blockCount : Obligations.BlockCount := by
  refine ⟨fun s => ⟨rfl, ?_, ?_⟩, rfl, rfl, rfl, rfl, rfl, rfl, rfl, fun s => rfl, fun L => blocksOf_le_iff L 65536⟩
  · rw [State.blocks, blocksOf]
    omega
  · exact (blocksOf_le_iff _ _).1 (le_refl s.blocks)

theorem Memory.bytes_add (m : Memory) (a n k : Nat) : m.bytes a (n + k) = m.bytes a n ++ m.bytes (a + n) k := by
  induction n generalizing a with
  | zero => rw [Nat.zero_add]; rfl
  | succ n ih =>
    rw [Nat.add_right_comm, Memory.bytes, ih, Memory.bytes, List.cons_append, Nat.add_right_comm a 1 n, Nat.add_assoc a n 1]

/-- The first `n` chunks of a buffer are its first `256 * n` bytes, or all of them. -/
theorem flatten_chunks (B : Memory) {n : Nat} (hn : n ≤ blocksOf B.len) :
    ((List.range n).map (chunkOf B)).flatten = B.bytes 0 (min (256 * n) B.len) := by
  induction n with
  | zero => rw [Nat.mul_zero, Nat.zero_min]; rfl
  | succ n ih =>
    obtain ⟨hin, hpos, hle⟩ := chunkLength_bounds (show n < blocksOf B.len from hn)
    have hstart : min (256 * n) B.len = 256 * n := by omega
    have hend : min (256 * (n + 1)) B.len = 256 * n + chunkLength B.len n := by
      by_cases hfinal : n + 1 < blocksOf B.len
      · rw [chunkLength_of_not_final hfinal] at hin ⊢
        omega
      · have hlen := chunkLength_of_final (L := B.len) (i := n) (by omega)
        have hall := (blocksOf_le_iff B.len (n + 1)).1 (by omega)
        omega
    rw [List.range_succ, List.map_append, List.flatten_append, ih (by omega), hstart, hend, Memory.bytes_add,
      Nat.zero_add, List.map_singleton, List.flatten_singleton, chunkOf]

/-- Settles O17: all the blocks together reach the end of the buffer. -/
theorem chunksMakeUpTheBuffer : Obligations.ChunksMakeUpTheBuffer := by
  intro B
  rw [flatten_chunks B (le_refl _), Nat.min_eq_right ((blocksOf_le_iff _ _).1 (le_refl _))]

/-! The canonical form. -/

theorem lookupCell_head (a : Nat) (b : Byte) (cs : List Host.Cell) : lookupCell ((a, b) :: cs) a = b := if_pos rfl

theorem lookupCell_cons_ne {a x : Nat} (b : Byte) (cs : List Host.Cell) (h : x ≠ a) :
    lookupCell ((a, b) :: cs) x = lookupCell cs x := if_neg h

/-- A canonical list of cells has its first cell at the first offset that does not read as unlisted. -/
theorem head_le_of_lookupCell {len lo lo' a a' : Nat} {b b' : Byte} {cs cs' : List Host.Cell}
    (h : cellsWf len lo ((a, b) :: cs) = true) (h' : cellsWf len lo' ((a', b') :: cs') = true)
    (hl : ∀ x, x < len → lookupCell ((a, b) :: cs) x = lookupCell ((a', b') :: cs') x) : a' ≤ a := by
  by_contra hlt
  obtain ⟨-, ha, hb, -⟩ := cellsWf_cons.1 h
  have hbelow : lookupCell ((a', b') :: cs') a = unlistedByte :=
    lookupCell_below (cellsWf_cons.2 ⟨le_refl a', (cellsWf_cons.1 h').2⟩) (by omega)
  exact hb ((lookupCell_head a b cs).symm.trans ((hl a ha).trans hbelow))

/-- Two canonical lists of cells that read the same are the same list. -/
theorem cells_eq_of_lookupCell {len lo lo' : Nat} {cs cs' : List Host.Cell} (h : cellsWf len lo cs = true)
    (h' : cellsWf len lo' cs' = true) (hl : ∀ x, x < len → lookupCell cs x = lookupCell cs' x) : cs = cs' := by
  induction cs generalizing lo lo' cs' with
  | nil =>
    cases cs' with
    | nil => rfl
    | cons c cs' =>
      obtain ⟨a, b⟩ := c
      obtain ⟨-, ha, hb, -⟩ := cellsWf_cons.1 h'
      exact absurd ((hl a ha).trans (lookupCell_head a b cs')).symm hb
  | cons c cs ih =>
    obtain ⟨a, b⟩ := c
    obtain ⟨-, ha, hb, hcs⟩ := cellsWf_cons.1 h
    cases cs' with
    | nil => exact absurd ((lookupCell_head a b cs).symm.trans (hl a ha)) hb
    | cons c' cs' =>
      obtain ⟨a', b'⟩ := c'
      obtain ⟨-, -, -, hcs'⟩ := cellsWf_cons.1 h'
      obtain rfl : a = a' := Nat.le_antisymm
        (head_le_of_lookupCell h' h fun x hx => (hl x hx).symm) (head_le_of_lookupCell h h' hl)
      obtain rfl : b = b' := by simpa only [lookupCell_head] using hl a ha
      have htail : cs = cs' := ih hcs hcs' fun x hx => by
        by_cases hxa : x < a + 1
        · rw [lookupCell_below hcs hxa, lookupCell_below hcs' hxa]
        · simpa only [lookupCell_cons_ne b _ (show x ≠ a by omega)] using hl x hx
      rw [htail]

/-- Settles O47: reading below the length decides the cells, and the length is given. -/
theorem canonicalMemoriesAreEqual : Obligations.CanonicalMemoriesAreEqual := by
  rintro ⟨len, cs⟩ ⟨len', cs'⟩ h h' rfl hread
  refine congrArg (Memory.mk len) (cells_eq_of_lookupCell h h' fun x hx => ?_)
  have hx' := hread x
  rw [Memory.read, Memory.read, if_pos hx, if_pos hx] at hx'
  exact Option.some.inj hx'

/-! A byte sequence written down and read back. -/

theorem lookupCell_cellsFrom (bs : List Byte) {lo x : Nat} (h : lo ≤ x) :
    lookupCell (cellsFrom lo bs) x = (bs[x - lo]?).getD unlistedByte := by
  induction bs generalizing lo with
  | nil => rfl
  | cons b bs ih =>
    by_cases hx : x = lo
    · subst hx
      rw [Nat.sub_self, List.getElem?_cons_zero, Option.getD_some, cellsFrom]
      split
      · next hb =>
        rw [hb]
        exact lookupCell_below (cellsFrom_wf bs (x + 1) _ (le_refl _)) (Nat.lt_succ_self x)
      · exact lookupCell_head x b _
    · have hsub : x - lo = x - (lo + 1) + 1 := by omega
      rw [hsub, List.getElem?_cons_succ, ← ih (show lo + 1 ≤ x by omega), cellsFrom]
      split
      · rfl
      · exact lookupCell_cons_ne b _ hx

theorem Memory.byteAt_ofBytes (bs : List Byte) (a : Nat) : (Memory.ofBytes bs).byteAt a = (bs[a]?).getD unlistedByte :=
  lookupCell_cellsFrom bs (Nat.zero_le a)

theorem Memory.read_ofBytes (bs : List Byte) (a : Nat) : (Memory.ofBytes bs).read a = bs[a]? := by
  rw [Memory.read, Memory.ofBytes_len, Memory.byteAt_ofBytes]
  split
  · next ha => rw [List.getElem?_eq_getElem ha, Option.getD_some]
  · next ha => rw [List.getElem?_eq_none (by omega)]

theorem Memory.bytes_getElem? (m : Memory) {a n q : Nat} (h : q < n) : (m.bytes a n)[q]? = some (m.byteAt (a + q)) := by
  induction n generalizing a q with
  | zero => omega
  | succ n ih =>
    cases q with
    | zero => rfl
    | succ q =>
      rw [Memory.bytes, List.getElem?_cons_succ, ih (by omega), Nat.add_right_comm, Nat.add_assoc]

/-- Settles O48: the cell of an offset, or its absence, gives back the byte written down there. -/
theorem presentedBytesAreRead : Obligations.PresentedBytesAreRead := by
  refine fun bs => ⟨List.ext_getElem? fun q => ?_, Memory.read_ofBytes bs⟩
  by_cases hq : q < bs.length
  · rw [Memory.bytes_getElem? _ hq, Nat.zero_add, Memory.byteAt_ofBytes, List.getElem?_eq_getElem hq, Option.getD_some]
  · rw [List.getElem?_eq_none (by rw [Memory.bytes_length]; omega), List.getElem?_eq_none (by omega)]

end Sys2Proof.Machine
end

section
/-! The output rows run by themselves, and the accepted START, COMPLETE and step(index) result by result (42_sequencer.md
R110, R116 to R126; 60_exceptions.md R130; log 8, log 13). -/

namespace Sys2Proof.Machine

/-! The output rows. -/

theorem exec_transmit_of_isFrame {s : State} {next : Word32} (hF : isFrame s.work = true) (hn : next ≠ 0) :
    exec (.transmit next) s = .next (dispatch (next - 1).toNat s.work s) := by
  have hpred : (next - 1).toNat = next.toNat - 1 := by
    have : next.toNat ≠ 0 := fun h => hn (BitVec.eq_of_toNat_eq h)
    bv_omega
  rw [exec, execTransmit, if_pos hF, if_neg hn, hpred]

theorem exec_transmit_zero {s : State} (hF : isFrame s.work = true) :
    exec (.transmit 0) s = .next (dispatchAs (Config.freeIndex s.draws) 0 s.work { s with draws := s.draws + 1 }) := by
  rw [exec, execTransmit, if_pos hF, if_pos rfl]

theorem exec_transmit_of_not_isFrame {s : State} (next : Word32) (hF : isFrame s.work = false) :
    exec (.transmit next) s = .fault .noFrame := by
  rw [exec, execTransmit, if_neg (by simp [hF])]

/-- Settles O25: the dispatch of index `next - 1`, whose echo is `next`; with `next = 0` of the free index. -/
theorem transmitDispatchesTheFrame : Obligations.TransmitDispatchesTheFrame := by
  refine fun s next => ⟨fun hF hn => ?_, fun hF hn => ⟨Config.freeIndex s.draws, ?_⟩, exec_transmit_of_not_isFrame next⟩
  · rw [exec_transmit_of_isFrame hF hn, dispatch_toNat, BitVec.sub_add_cancel]
  · subst hn
    exact exec_transmit_zero hF

theorem exec_done (endIndex : Word32) (s : State) : exec (.done endIndex) s = .next (endSequence endIndex s) := rfl

/-- Settles O26: DONE is the update `endSequence`. -/
theorem doneEndsTheSequence : Obligations.DoneEndsTheSequence := fun s endIndex => exec_done endIndex s

/-- The codes 0 to 4 are those of an error, and 5 to 7 are of none (60_exceptions.md R129). -/
theorem ErrorCode.ofBits_map_bits (b : BitVec 3) :
    (ErrorCode.ofBits b).map bits = if b.toNat ≤ 4 then some b else Option.none := by
  revert b
  decide

theorem ErrorCode.ofArg_of_le {arg : Word32} (h : arg.toNat ≤ 4) :
    ∃ e, ErrorCode.ofArg arg = some e ∧ e.bits = BitVec.ofNat 3 arg.toNat := by
  have hcode : (BitVec.ofNat 3 arg.toNat).toNat ≤ 4 := by rw [BitVec.toNat_ofNat]; omega
  have hmap := ErrorCode.ofBits_map_bits (BitVec.ofNat 3 arg.toNat)
  rw [if_pos hcode, Option.map_eq_some_iff] at hmap
  rw [ErrorCode.ofArg, if_pos (by omega)]
  exact hmap

theorem ErrorCode.ofArg_of_lt {arg : Word32} (h : 4 < arg.toNat) : ErrorCode.ofArg arg = Option.none := by
  rw [ErrorCode.ofArg]
  split
  · have hcode : ¬(BitVec.ofNat 3 arg.toNat).toNat ≤ 4 := by rw [BitVec.toNat_ofNat]; omega
    have hmap := ErrorCode.ofBits_map_bits (BitVec.ofNat 3 arg.toNat)
    rwa [if_neg hcode, Option.map_eq_none_iff] at hmap
  · rfl

/-- What ERROR run by itself answers. -/
theorem execError_next_iff {arg : Word32} {s t : State} :
    execError arg s = .next t ↔ ∃ e, ErrorCode.ofArg arg = some e ∧ t = raise e s := by
  unfold execError
  cases ErrorCode.ofArg arg <;> simp [eq_comm]

/-- Settles O27: ERROR raises the error of its code, and a wider argument or a reserved code has none. -/
theorem errorRaisesItsCode : Obligations.ErrorRaisesItsCode := by
  refine fun s arg => ⟨fun h => ?_, fun h => ?_⟩
  · obtain ⟨e, he, hbits⟩ := ErrorCode.ofArg_of_le h
    rw [← hbits]
    exact execError_next_iff.2 ⟨e, he, rfl⟩
  · rw [exec, execError, ErrorCode.ofArg_of_lt h]

/-! START. -/

/-- Settles O6: the length is compared first. -/
theorem malformedStartIsRefused : Obligations.MalformedStartIsRefused := by
  intro s L hlen
  rw [exec, execStart, if_neg (mt State.presents_iff.1 hlen)]

/-- The accepting way of START (R110). -/
theorem execStart_of_accepted {s : State} {L : Word32} (hs : s.status = .idle) (hf : s.inFlight = false)
    (hp : s.presented.len = L.toNat) (hL : L.toNat ≤ maxLen) :
    execStart L s =
      .next (dispatch 0 (buildControlFrame Config.providers (s.presented.bytes 0 L.toNat)) (openSession L s)) := by
  have hstep : sequencerStep 0 (openSession L s) = controlStep 0 (openSession L s) :=
    sequencerStep_eq_controlStep rfl (by decide)
  rw [execStart, if_pos (State.presents_iff.2 hp), if_neg (by simp [hs]), if_neg (by simp [hf]), if_neg (by omega),
    hstep, controlStep_openSession hp, outcomeOf_ok]

/-- Settles O28: the session is opened on the presented buffer, and index 0 is a control step. -/
theorem startOpensASession : Obligations.StartOpensASession :=
  fun _ _ hs hf hp hL => execStart_of_accepted hs hf hp hL

/-! COMPLETE. -/

theorem execComplete_of_spurious (n : Word32) {s : State} (hf : s.inFlight = false) :
    execComplete n s = .next (raise .spuriousCompletion s) := by
  rw [execComplete, if_pos hf]

theorem execComplete_of_mismatch {n : Word32} {s : State} (hf : s.inFlight = true) (hn : n.toNat ≠ s.expectedEcho) :
    execComplete n s = .next (raise .completionMismatch (setIdle (clearInFlight s))) := by
  rw [execComplete, if_neg (by simp [hf]), if_pos hn]

/-- Settles O33: the three ways, each with the writes of its raise or the step that it runs. -/
theorem completeChecksTheEcho : Obligations.CompleteChecksTheEcho :=
  fun _ n => ⟨execComplete_of_spurious n, execComplete_of_mismatch, execComplete_of_echo⟩

/-! The ways of step(index) at the end of the sequence. -/

theorem sequencerStep_past_end {s : State} {index : Word32} (hs : s.status = .sending) (hi : 2 + s.blocks < index.toNat) :
    sequencerStep index s = .error .stepPastEnd := by
  rw [sequencerStep, if_neg (by simp [hs]), if_pos (by exact hi)]

/-- At index `2 + blocks` the policy and the block count decide (R124, R125). -/
theorem sequencerStep_at_end {s : State} {index : Word32} (hs : s.status = .sending) (hi : index.toNat = 2 + s.blocks) :
    sequencerStep index s =
      if s.endPolicy = .loop ∧ 1 ≤ s.blocks then dataStep 2 (countPass s) else .ok (endSequence index s) := by
  rw [sequencerStep, if_neg (by simp [hs]), if_neg (by rw [ctrlRepeat]; omega), if_neg (by rw [ctrlRepeat]; omega),
    if_neg (by omega)]

/-- The wrap of LOOP dispatches block 0, whose number fits 16 bits whatever the length (R125). -/
theorem dataStep_countPass {s : State} (hlen : s.src.len = s.srcLen.toNat) (hblocks : 1 ≤ s.blocks) :
    dataStep 2 (countPass s) = .ok (dispatch 2 (dataFrameOf s.src 0) (countPass s)) := by
  obtain ⟨hinside, hchunk⟩ := chunkLength_bounds (show 0 < blocksOf s.srcLen.toNat from hblocks)
  refine dataStep_ok.2 ⟨⟨hinside, hlen ▸ hinside⟩, hchunk, by decide, ?_⟩
  rw [dataFrameOf, chunkOf, hlen]
  rfl

/-- Settles O39: with no pass to begin, the end of the sequence; above it the model's fault. -/
theorem stepEndsTheSequence : Obligations.StepEndsTheSequence := by
  intro s index hs
  refine ⟨fun hi hend => ⟨?_, id, hi⟩, fun hi => ?_⟩
  · have hstop : ¬(s.endPolicy = .loop ∧ 1 ≤ s.blocks) := by
      rintro ⟨hloop, hblocks⟩
      obtain hpolicy | hnone := hend
      · cases hpolicy.symm.trans hloop
      · omega
    rw [exec_step, sequencerStep_at_end hs hi, if_neg hstop, outcomeOf_ok]
    rfl
  · rw [exec_step, sequencerStep_past_end hs hi, outcomeOf_error]

/-- Settles O40: with a block the pass is counted and block 0 dispatched; with none LOOP ends the sequence. -/
theorem stepLoopsToBlockZero : Obligations.StepLoopsToBlockZero := by
  intro s index hs hlen hloop hi n F
  refine ⟨fun hblocks => ?_, fun hnone => ?_⟩
  · have hn : chunkLength s.src.len 0 = n := by
      simp only [n, chunkLength, chunkSize, State.blocks, hlen, Nat.zero_add, Nat.mul_zero, Nat.sub_zero]
    have hF : dataFrameOf s.src 0 = F := by rw [dataFrameOf, chunkOf, hn]; rfl
    rw [exec_step, sequencerStep_at_end hs hi, if_pos ⟨hloop, hblocks⟩, dataStep_countPass hlen hblocks, hF,
      outcomeOf_ok]
    rfl
  · rw [exec_step, sequencerStep_at_end hs hi, if_neg (by omega), outcomeOf_ok]
    rfl

/-! COMPLETE with the right echo, result by result. A dispatch sets `inFlight` again, so that clearing it before leaves no
trace. -/

section Advance

variable {s : State} {n : Word32}

/-- The second control frame (R120). -/
theorem execComplete_control (hs : s.status = .sending) (hf : s.inFlight = true) (hn : n.toNat = s.expectedEcho)
    (hlen : s.src.len = s.srcLen.toNat) (hlt : n.toNat < 2) :
    execComplete n s = .next (dispatch n.toNat (controlFrameOf s.src) s) := by
  rw [execComplete_of_echo hf hn, sequencerStep_eq_controlStep (s := clearInFlight s) hs hlt,
    controlStep_eq (s := clearInFlight s) _ hlen, outcomeOf_ok]
  rfl

/-- The frame of the next block (R121). -/
theorem execComplete_block (hs : s.status = .sending) (hf : s.inFlight = true) (hn : n.toNat = s.expectedEcho)
    (hlen : s.src.len = s.srcLen.toNat) (hmax : s.srcLen.toNat ≤ maxLen) (h2 : 2 ≤ n.toNat)
    (hlt : n.toNat < 2 + s.blocks) :
    execComplete n s = .next (dispatch n.toNat (dataFrameOf s.src (n.toNat - 2)) s) := by
  have hblock : n.toNat - 2 < (clearInFlight s).blocks := by rw [clearInFlight_blocks]; omega
  rw [execComplete_of_echo hf hn, sequencerStep_eq_dataStep (s := clearInFlight s) hs h2 hlt,
    dataStep_eq (s := clearInFlight s) hlen hmax hblock, outcomeOf_ok]
  rfl

/-- Block 0 again, with the pass counted (R125). -/
theorem execComplete_loop (hs : s.status = .sending) (hf : s.inFlight = true) (hn : n.toNat = s.expectedEcho)
    (hlen : s.src.len = s.srcLen.toNat) (hend : n.toNat = 2 + s.blocks) (hloop : s.endPolicy = .loop)
    (hblocks : 1 ≤ s.blocks) : execComplete n s = .next (dispatch 2 (dataFrameOf s.src 0) (countPass s)) := by
  rw [execComplete_of_echo hf hn, sequencerStep_at_end (s := clearInFlight s) hs hend,
    if_pos (by exact ⟨hloop, hblocks⟩), dataStep_countPass (s := clearInFlight s) hlen hblocks, outcomeOf_ok]
  rfl

/-- The end of the sequence (R124). -/
theorem execComplete_end (hs : s.status = .sending) (hf : s.inFlight = true) (hn : n.toNat = s.expectedEcho)
    (hend : n.toNat = 2 + s.blocks) (hstop : ¬(s.endPolicy = .loop ∧ 1 ≤ s.blocks)) :
    execComplete n s = .next (endSequence n (clearInFlight s)) := by
  rw [execComplete_of_echo hf hn, sequencerStep_at_end (s := clearInFlight s) hs hend, if_neg (by exact hstop),
    outcomeOf_ok]

end Advance

/-- A dispatch while a frame is in flight, as the writes it leaves. -/
theorem dispatch_of_inFlight {s : State} (hf : s.inFlight = true) (index : Nat) (F : List Byte) :
    dispatch index F s =
      { s with
        frameIndex := BitVec.ofNat 32 index
        outputs := s.outputs ++ [.transmit F (BitVec.ofNat 32 (index + 1))]
        playing := s.playing ++ [⟨F, BitVec.ofNat 32 (index + 1)⟩] } := by
  simp only [dispatch, dispatchAs, emit, hf]

/-- Settles O34: the right echo runs step(n), whose ways are told apart by `n` and the policy. -/
theorem completeAdvancesTheSession : Obligations.CompleteAdvancesTheSession := by
  intro s n hs hf hn hlen hmax sent
  have hsent (index : Nat) (F : List Byte) (u : State) (hu : u.inFlight = true) : dispatch index F u = sent index F u :=
    dispatch_of_inFlight hu index F
  refine ⟨fun hle => ?_, fun hpast => ?_⟩
  · obtain hlt | h2 := Nat.lt_or_ge n.toNat 2
    · rw [if_pos hlt, ← hsent _ _ s hf]
      exact execComplete_control hs hf hn hlen hlt
    rw [if_neg (Nat.not_lt.2 h2)]
    obtain hlt | hge := Nat.lt_or_ge n.toNat (2 + s.blocks)
    · rw [if_pos hlt, ← hsent _ _ s hf]
      exact execComplete_block hs hf hn hlen hmax h2 hlt
    rw [if_neg (Nat.not_lt.2 hge)]
    by_cases hloop : s.endPolicy = .loop ∧ 1 ≤ s.blocks
    · rw [if_pos hloop]
      exact (execComplete_loop hs hf hn hlen (Nat.le_antisymm hle hge) hloop.1 hloop.2).trans
        (congrArg _ (hsent 2 _ (countPass s) hf))
    · rw [if_neg hloop]
      exact execComplete_end hs hf hn (Nat.le_antisymm hle hge) hloop
  · have hfault : sequencerStep n (clearInFlight s) = .error .stepPastEnd := sequencerStep_past_end hs hpast
    exact (execComplete_of_echo hf hn).trans (by rw [hfault, outcomeOf_error])

end Sys2Proof.Machine
end

section
/-! What the instructions leave unchanged: SRC, the environment and the registers each does not write, and what an error
leaves (10_state.md R21 to R30, 20_memory.md R38, 60_exceptions.md R131). -/

namespace Sys2Proof.Machine

/-! What each instruction can answer, said once. -/

/-- What `step(index)` answers: the state itself, one dispatch with a pass counted or not, or the end of the sequence. -/
theorem sequencerStep_ok {index : Word32} {s t : State} (h : sequencerStep index s = .ok t) :
    t = s ∨ (∃ k F, t = dispatch k F s) ∨ (∃ F, t = dispatch 2 F (countPass s)) ∨ t = endSequence index s := by
  obtain ⟨-, hr⟩ | ⟨-, -, hr⟩ | ⟨-, -, -, hr⟩ | ⟨-, -, -, -, hr⟩ | ⟨-, -, -, hr⟩ | ⟨-, -, hr⟩ :=
    sequencerStep_cases index s
  all_goals rw [hr] at h
  · cases h; exact .inl rfl
  case inr.inl => exact .inr (.inl ⟨_, _, (controlStep_ok.1 h).2⟩)
  case inr.inr.inl =>
    obtain ⟨-, -, -, ht⟩ := dataStep_ok.1 h
    exact .inr (.inl ⟨_, _, ht⟩)
  case inr.inr.inr.inl =>
    obtain ⟨-, -, -, ht⟩ := dataStep_ok.1 h
    exact .inr (.inr (.inl ⟨_, ht⟩))
  case inr.inr.inr.inr.inl => cases h; exact .inr (.inr (.inr rfl))
  case inr.inr.inr.inr.inr => cases h

/-- What START answers: nothing, RANGE_OVERFLOW, or a session on the presented buffer. -/
theorem execStart_next {L : Word32} {s t : State} (h : execStart L s = .next t) :
    t = s ∨ t = raise .rangeOverflow s ∨
    (s.status = .idle ∧ s.inFlight = false ∧ L.toNat ≤ maxLen ∧ s.presented.len = L.toNat ∧
      ∃ F, t = dispatch 0 F (openSession L s)) := by
  obtain ⟨-, hr⟩ | ⟨-, -, hr⟩ | ⟨-, -, -, hr⟩ | ⟨-, -, -, -, hr⟩ | ⟨hp, hs, hf, hL, hr⟩ := execStart_cases L s
  all_goals rw [hr] at h
  · cases h
  case inr.inl => cases h; exact .inl rfl
  case inr.inr.inl => cases h; exact .inl rfl
  case inr.inr.inr.inl => cases h; exact .inr (.inl rfl)
  case inr.inr.inr.inr =>
    exact .inr (.inr ⟨hs, hf, hL, State.presents_iff.1 hp, _, (controlStep_ok.1 (outcomeOf_next.1 h)).2⟩)

/-- What COMPLETE answers: one of its two errors, or `step(n)` of the state with nothing in flight. -/
theorem execComplete_next {n : Word32} {s t : State} (h : execComplete n s = .next t) :
    t = raise .spuriousCompletion s ∨ t = raise .completionMismatch (setIdle (clearInFlight s)) ∨
      sequencerStep n (clearInFlight s) = .ok t := by
  obtain ⟨-, hr⟩ | ⟨-, -, hr⟩ | ⟨-, -, hr⟩ := execComplete_cases n s
  all_goals rw [hr] at h
  · cases h; exact .inl rfl
  case inr.inl => cases h; exact .inr (.inl rfl)
  case inr.inr => exact .inr (.inr (outcomeOf_next.1 h))

/-- What TRANSMIT run by itself answers: a dispatch, with a free value drawn or not. -/
theorem execTransmit_next {next : Word32} {s t : State} (h : execTransmit next s = .next t) :
    ∃ index k, t = dispatchAs index next s.work { s with draws := k } := by
  cases hF : isFrame s.work with
  | false => cases (exec_transmit_of_not_isFrame next hF).symm.trans h
  | true =>
    by_cases hn : next = 0
    · subst hn
      cases (exec_transmit_zero hF).symm.trans h
      exact ⟨_, _, rfl⟩
    · cases (exec_transmit_of_isFrame hF hn).symm.trans h
      refine ⟨next - 1, s.draws, ?_⟩
      rw [dispatch_toNat, BitVec.sub_add_cancel]
      rfl

/-- A presented START with a frame in flight has no effect when it is run (R112; log 20). -/
theorem execStart_of_inFlight {s : State} {L : Word32} (hp : s.presented.len = L.toNat) (hf : s.inFlight = true) :
    execStart L s = .next s := by
  rw [execStart, if_pos (State.presents_iff.2 hp), if_pos hf, ite_self]

/-! SRC and the environment. -/

/-- Nothing but what the events of the core write differs: the presented buffer, the configuration, the channels, the
loader, the port and the schedule are the same. -/
structure KeepsEnvironment (s t : State) : Prop where
  presented : t.presented = s.presented
  endPolicy : t.endPolicy = s.endPolicy
  control : t.control = s.control
  completion : t.completion = s.completion
  loading : t.loading = s.loading
  port : t.port = s.port
  schedule : t.schedule = s.schedule

/-- The environment, SRC and its length are the same. -/
structure KeepsSource (s t : State) : Prop extends KeepsEnvironment s t where
  src : t.src = s.src
  srcLen : t.srcLen = s.srcLen

theorem KeepsSource.refl (s : State) : KeepsSource s s := ⟨⟨rfl, rfl, rfl, rfl, rfl, rfl, rfl⟩, rfl, rfl⟩

theorem sequencerStep_keepsSource {index : Word32} {s t : State} (h : sequencerStep index s = .ok t) :
    KeepsSource s t := by
  obtain rfl | ⟨k, F, rfl⟩ | ⟨F, rfl⟩ | rfl := sequencerStep_ok h
  · exact .refl _
  all_goals exact { KeepsSource.refl s with }

theorem execComplete_keepsSource {n : Word32} {s t : State} (h : execComplete n s = .next t) : KeepsSource s t := by
  obtain rfl | rfl | h := execComplete_next h
  · exact { KeepsSource.refl s with }
  · exact { KeepsSource.refl s with }
  · obtain ⟨henv, hsrc, hlen⟩ := sequencerStep_keepsSource h
    exact ⟨{ henv with }, hsrc, hlen⟩

theorem leaveResult_keepsSource {r : Except Fault (List Byte)} {s t : State} (h : leaveResult r s = .next t) :
    KeepsSource s t := by
  obtain ⟨F, -, rfl⟩ := leaveResult_next.1 h
  exact { KeepsSource.refl s with }

/-- Every instruction but START leaves SRC and the environment (20_memory.md R38). -/
theorem exec_keepsSource {i : Instr} {s t : State} (hi : ∀ L, i ≠ .start L) (h : exec i s = .next t) :
    KeepsSource s t := by
  cases i with
  | start L => exact absurd rfl (hi L)
  | stop => cases h; exact { KeepsSource.refl s with }
  | complete n => exact execComplete_keepsSource h
  | loadFail => cases h; exact { KeepsSource.refl s with }
  | transmit next =>
    obtain ⟨index, k, rfl⟩ := execTransmit_next h
    exact { KeepsSource.refl s with }
  | done endIndex => cases h; exact { KeepsSource.refl s with }
  | error arg =>
    obtain ⟨e, -, rfl⟩ := execError_next_iff.1 h
    exact { KeepsSource.refl s with }
  | step index => exact sequencerStep_keepsSource (outcomeOf_next.1 h)
  | controlFrame f => exact leaveResult_keepsSource (r := .ok (controlBytes f)) h
  | dataFrame f => exact leaveResult_keepsSource (r := .ok (dataBytes f)) h
  | buildControlFrame B => exact leaveResult_keepsSource h
  | buildDataFrame C k => exact leaveResult_keepsSource h
  | pad C => exact leaveResult_keepsSource h
  | stripe F => exact leaveResult_keepsSource h

theorem execStart_keepsEnvironment {L : Word32} {s t : State} (h : execStart L s = .next t) : KeepsEnvironment s t := by
  obtain rfl | rfl | ⟨-, -, -, -, F, rfl⟩ := execStart_next h
  all_goals exact ⟨rfl, rfl, rfl, rfl, rfl, rfl, rfl⟩

theorem exec_keepsEnvironment {i : Instr} {s t : State} (h : exec i s = .next t) : KeepsEnvironment s t := by
  by_cases hi : ∃ L, i = .start L
  · obtain ⟨L, rfl⟩ := hi
    exact execStart_keepsEnvironment h
  · exact (exec_keepsSource (fun L hL => hi ⟨L, hL⟩) h).toKeepsEnvironment

/-- SRC is kept, or an accepted START has put the presented buffer in its place (42_sequencer.md R110). -/
theorem exec_source {i : Instr} {s t : State} (h : exec i s = .next t) :
    (t.src = s.src ∧ t.srcLen = s.srcLen) ∨
    (∃ L, i = .start L ∧ s.status = .idle ∧ s.inFlight = false ∧ L.toNat ≤ maxLen ∧ s.presented.len = L.toNat ∧
      t.srcLen = L ∧ t.src = s.presented) := by
  by_cases hi : ∃ L, i = .start L
  · obtain ⟨L, rfl⟩ := hi
    obtain rfl | rfl | ⟨hs, hf, hL, hp, F, rfl⟩ := execStart_next h
    · exact .inl ⟨rfl, rfl⟩
    · exact .inl ⟨rfl, rfl⟩
    · exact .inr ⟨L, rfl, hs, hf, hL, hp, rfl, rfl⟩
  · have hkept := exec_keepsSource (fun L hL => hi ⟨L, hL⟩) h
    exact .inl ⟨hkept.src, hkept.srcLen⟩

/-- Settles O41: the buffer itself is kept or replaced, so each of its bytes is. -/
theorem noInstructionWritesTheSource : Obligations.NoInstructionWritesTheSource := by
  intro i s t h
  obtain ⟨hpresented, hpolicy, hcontrol, hcompletion, hloading, hport, hschedule⟩ := exec_keepsEnvironment h
  refine ⟨?_, hpresented, hpolicy, hcontrol, hcompletion, hloading, hport, hschedule⟩
  obtain ⟨hsrc, hlen⟩ | ⟨L, hi, hs, hf, hL, hp, hlen, hsrc⟩ := exec_source h
  · exact .inl ⟨fun a => by rw [hsrc], hlen⟩
  · exact .inr ⟨L, hi, hs, hf, hL, hp, hlen, fun a => by rw [hsrc]⟩

/-! The registers. -/

theorem sequencerStep_lastError {index : Word32} {s t : State} (h : sequencerStep index s = .ok t) :
    t.lastError = s.lastError := by
  obtain rfl | ⟨k, F, rfl⟩ | ⟨F, rfl⟩ | rfl := sequencerStep_ok h
  all_goals rfl

/-- No register of the sequencer but `srcLen` differs. -/
structure KeepsRegisters (s t : State) : Prop where
  status : t.status = s.status
  frameIndex : t.frameIndex = s.frameIndex
  playCount : t.playCount = s.playCount
  inFlight : t.inFlight = s.inFlight
  lastError : t.lastError = s.lastError

theorem leaveResult_keepsRegisters {r : Except Fault (List Byte)} {s t : State} (h : leaveResult r s = .next t) :
    KeepsRegisters s t := by
  obtain ⟨F, -, rfl⟩ := leaveResult_next.1 h
  exact ⟨rfl, rfl, rfl, rfl, rfl⟩

/-- A register that differs has the instruction among its writers (10_state.md R23, R24, R26, R27, R28, R30). -/
structure OnlyWritersWrite (i : Instr) (s t : State) : Prop where
  status : t.status ≠ s.status → (∃ L, i = .start L) ∨ i = .stop ∨ (∃ n, i = .complete n) ∨ (∃ n, i = .done n) ∨
    ∃ n, i = .step n
  frameIndex : t.frameIndex ≠ s.frameIndex → (∃ L, i = .start L) ∨ (∃ n, i = .complete n) ∨ (∃ n, i = .transmit n) ∨
    (∃ n, i = .done n) ∨ ∃ n, i = .step n
  playCount : t.playCount ≠ s.playCount → (∃ L, i = .start L) ∨ (∃ n, i = .complete n) ∨ ∃ n, i = .step n
  source : t.srcLen ≠ s.srcLen ∨ t.src ≠ s.src → ∃ L, i = .start L
  inFlight : t.inFlight ≠ s.inFlight → (∃ L, i = .start L) ∨ (∃ n, i = .complete n) ∨ (∃ n, i = .transmit n) ∨
    ∃ n, i = .step n
  lastError : t.lastError ≠ s.lastError →
    (∃ L, i = .start L) ∨ (∃ n, i = .complete n) ∨ i = .loadFail ∨ ∃ n, i = .error n

theorem onlyWritersWrite_of_keeps {s t : State} (i : Instr) (hr : KeepsRegisters s t) (hs : KeepsSource s t) :
    OnlyWritersWrite i s t where
  status h := absurd hr.status h
  frameIndex h := absurd hr.frameIndex h
  playCount h := absurd hr.playCount h
  source h := h.elim (absurd hs.srcLen) (absurd hs.src)
  inFlight h := absurd hr.inFlight h
  lastError h := absurd hr.lastError h

/-- An operation whose result is left in the frame space writes no register (40_frame_encoder.md R75). -/
theorem leaveResult_onlyWritersWrite {r : Except Fault (List Byte)} {s t : State} (i : Instr)
    (h : leaveResult r s = .next t) : OnlyWritersWrite i s t :=
  onlyWritersWrite_of_keeps i (leaveResult_keepsRegisters h) (leaveResult_keepsSource h)

theorem exec_onlyWritersWrite {i : Instr} {s t : State} (h : exec i s = .next t) : OnlyWritersWrite i s t := by
  cases i with
  | start L => constructor <;> simp
  | stop => cases h; constructor <;> simp
  | complete n =>
    have hkept := execComplete_keepsSource h
    constructor <;> simp [hkept.src, hkept.srcLen]
  | loadFail => cases h; constructor <;> simp
  | transmit next =>
    obtain ⟨index, k, rfl⟩ := execTransmit_next h
    constructor <;> simp
  | done endIndex => cases h; constructor <;> simp
  | error arg =>
    obtain ⟨e, -, rfl⟩ := execError_next_iff.1 h
    constructor <;> simp
  | step index =>
    have hstep := outcomeOf_next.1 h
    have hkept := sequencerStep_keepsSource hstep
    constructor <;> simp [hkept.src, hkept.srcLen, sequencerStep_lastError hstep]
  | controlFrame f => exact leaveResult_onlyWritersWrite (r := .ok (controlBytes f)) _ h
  | dataFrame f => exact leaveResult_onlyWritersWrite (r := .ok (dataBytes f)) _ h
  | buildControlFrame B => exact leaveResult_onlyWritersWrite _ h
  | buildDataFrame C k => exact leaveResult_onlyWritersWrite _ h
  | pad C => exact leaveResult_onlyWritersWrite _ h
  | stripe F => exact leaveResult_onlyWritersWrite _ h

/-- Settles O42: what each instruction answers differs from the state in the registers it writes only. -/
theorem registersHaveTheirWriters : Obligations.RegistersHaveTheirWriters := by
  intro i s t h
  obtain ⟨hstatus, hindex, hpass, hsource, hflight, herror⟩ := exec_onlyWritersWrite h
  exact ⟨hstatus, hindex, hpass, hsource, hflight, herror⟩

/-! Errors. -/

/-- What an error with a code leaves: `lastError` is the code, the flags are written by code 3 only, and the rest of the
session is as before (60_exceptions.md R131, R133). -/
structure PreciseError (s t : State) (code : BitVec 3) : Prop where
  lastError : t.lastError = code
  frameIndex : t.frameIndex = s.frameIndex
  playCount : t.playCount = s.playCount
  srcLen : t.srcLen = s.srcLen
  src : t.src = s.src
  playing : t.playing = s.playing
  control : t.control = s.control
  completion : t.completion = s.completion
  flags_kept : code ≠ 3 → t.status = s.status ∧ t.inFlight = s.inFlight
  flags_cleared : code = 3 → t.status = .idle ∧ t.inFlight = false

theorem error_code_eq {os : List Output} {c code : BitVec 3} (h : os ++ [.error c] = os ++ [.error code]) : c = code := by
  simpa using h

theorem raise_precise {e : ErrorCode} {s : State} {code : BitVec 3} (he : e.bits ≠ 3)
    (h : (raise e s).outputs = s.outputs ++ [.error code]) : PreciseError s (raise e s) code := by
  obtain rfl := error_code_eq h
  exact ⟨rfl, rfl, rfl, rfl, rfl, rfl, rfl, rfl, fun _ => ⟨rfl, rfl⟩, fun h3 => absurd h3 he⟩

theorem completionMismatch_precise {s : State} {code : BitVec 3}
    (h : (raise .completionMismatch (setIdle (clearInFlight s))).outputs = s.outputs ++ [.error code]) :
    PreciseError s (raise .completionMismatch (setIdle (clearInFlight s))) code := by
  obtain rfl := error_code_eq h
  exact ⟨rfl, rfl, rfl, rfl, rfl, rfl, rfl, rfl, fun h3 => absurd rfl h3, fun _ => ⟨rfl, rfl⟩⟩

/-- `step(index)` raises nothing. -/
theorem sequencerStep_outputs_ne_error {index : Word32} {s t : State} (h : sequencerStep index s = .ok t)
    (code : BitVec 3) : t.outputs ≠ s.outputs ++ [.error code] := by
  obtain rfl | ⟨k, F, rfl⟩ | ⟨F, rfl⟩ | rfl := sequencerStep_ok h
  all_goals simp

/-- Settles O43: every emission of an ERROR by an input event is one of four raises, and only that of a wrong echo is
preceded by writes, of the two flags. -/
theorem errorsArePrecise : Obligations.ErrorsArePrecise := by
  intro i s t code hi h hout
  suffices hp : PreciseError s t code by
    obtain ⟨herror, hindex, hpass, hlen, hsrc, hplaying, hcontrol, hcompletion, hkept, hcleared⟩ := hp
    exact ⟨herror, hindex, hpass, hlen, hsrc, hplaying, hcontrol, hcompletion, hkept, hcleared⟩
  obtain ⟨L, rfl⟩ | rfl | ⟨n, rfl⟩ | rfl := hi
  · obtain rfl | rfl | ⟨-, -, -, -, F, rfl⟩ := execStart_next h
    · simp at hout
    · exact raise_precise (by decide) hout
    · simp at hout
  · cases h
    simp at hout
  · obtain rfl | rfl | hstep := execComplete_next h
    · exact raise_precise (by decide) hout
    · exact completionMismatch_precise hout
    · exact absurd hout (sequencerStep_outputs_ne_error hstep code)
  · cases h
    exact raise_precise (by decide) hout

/-! What steers the sequencer. -/

/-- Two states that agree on what the sequencer's transitions read (41_hash_integration.md R104). -/
structure SameControl (s s' : State) : Prop where
  status : s'.status = s.status
  inFlight : s'.inFlight = s.inFlight
  frameIndex : s'.frameIndex = s.frameIndex
  srcLen : s'.srcLen = s.srcLen
  endPolicy : s'.endPolicy = s.endPolicy
  src_len : s'.src.len = s.src.len

theorem SameControl.blocks {s s' : State} (h : SameControl s s') : s'.blocks = s.blocks :=
  congrArg (fun L : Word32 => blocksOf L.toNat) h.srcLen

theorem SameControl.clearInFlight {s s' : State} (h : SameControl s s') :
    SameControl (clearInFlight s) (clearInFlight s') :=
  { h with inFlight := rfl }

theorem SameControl.countPass {s s' : State} (h : SameControl s s') : SameControl (countPass s) (countPass s') :=
  { h with }

theorem SameControl.dispatch {s s' : State} (h : SameControl s s') (index : Nat) (F F' : List Byte) :
    SameControl (dispatch index F s) (dispatch index F' s') :=
  { h with inFlight := rfl, frameIndex := rfl }

theorem SameControl.endSequence {s s' : State} (h : SameControl s s') (index : Word32) :
    SameControl (endSequence index s) (endSequence index s') :=
  { h with status := rfl, frameIndex := rfl }

theorem SameControl.raise {s s' : State} (h : SameControl s s') (e : ErrorCode) :
    SameControl (raise e s) (raise e s') :=
  { h with }

theorem SameControl.setIdle {s s' : State} (h : SameControl s s') : SameControl (setIdle s) (setIdle s') :=
  { h with status := rfl }

theorem SameControl.openSession {s s' : State} (h : SameControl s s') (hp : s'.presented.len = s.presented.len)
    (L : Word32) : SameControl (openSession L s) (openSession L s') :=
  ⟨rfl, h.inFlight, rfl, rfl, h.endPolicy, hp⟩

theorem controlStep_sameControl {index : Nat} {s s' t : State} (hc : SameControl s s')
    (h : controlStep index s = .ok t) : ∃ t', controlStep index s' = .ok t' ∧ SameControl t t' := by
  obtain ⟨hlen, rfl⟩ := controlStep_ok.1 h
  refine ⟨_, controlStep_ok.2 ⟨?_, rfl⟩, hc.dispatch _ _ _⟩
  rwa [hc.srcLen, hc.src_len]

theorem dataStep_sameControl {index : Nat} {s s' t : State} (hc : SameControl s s') (h : dataStep index s = .ok t) :
    ∃ t', dataStep index s' = .ok t' ∧ SameControl t t' := by
  obtain ⟨hinside, hchunk, hblock, rfl⟩ := dataStep_ok.1 h
  refine ⟨_, dataStep_ok.2 ⟨?_, ?_, hblock, rfl⟩, hc.dispatch _ _ _⟩
  · rwa [hc.srcLen, hc.src_len]
  · rwa [hc.srcLen]

/-- `step(index)` takes the same way in both states. -/
theorem sequencerStep_sameControl {index : Word32} {s s' t : State} (hc : SameControl s s')
    (h : sequencerStep index s = .ok t) : ∃ t', sequencerStep index s' = .ok t' ∧ SameControl t t' := by
  obtain ⟨hs, hr⟩ | ⟨hs, hlt, hr⟩ | ⟨hs, h2, hi, hr⟩ | ⟨hs, hi, hloop, hblocks, hr⟩ | ⟨hs, hi, hend, hr⟩ | ⟨-, -, hr⟩ :=
    sequencerStep_cases index s
  all_goals rw [hr] at h
  · cases h
    exact ⟨s', sequencerStep_of_idle index (hc.status.trans hs), hc⟩
  case inr.inl =>
    rw [sequencerStep_eq_controlStep (hc.status.trans hs) hlt]
    exact controlStep_sameControl hc h
  case inr.inr.inl =>
    rw [sequencerStep_eq_dataStep (hc.status.trans hs) h2 (by rw [hc.blocks]; omega)]
    exact dataStep_sameControl hc h
  case inr.inr.inr.inl =>
    have hpass : s'.endPolicy = .loop ∧ 1 ≤ s'.blocks := ⟨hc.endPolicy.trans hloop, hc.blocks ▸ hblocks⟩
    rw [sequencerStep_at_end (hc.status.trans hs) (by rw [hc.blocks, hi]), if_pos hpass]
    exact dataStep_sameControl hc.countPass h
  case inr.inr.inr.inr.inl =>
    cases h
    have hstop : ¬(s'.endPolicy = .loop ∧ 1 ≤ s'.blocks) := by
      rw [hc.endPolicy, hc.blocks]
      rintro ⟨hloop, hblocks⟩
      obtain hpolicy | hnone := hend
      · cases hpolicy.symm.trans hloop
      · omega
    rw [sequencerStep_at_end (hc.status.trans hs) (by rw [hc.blocks, hi]), if_neg hstop]
    exact ⟨_, rfl, hc.endSequence index⟩
  case inr.inr.inr.inr.inr => cases h

theorem execComplete_sameControl {n : Word32} {s s' t : State} (hc : SameControl s s') (h : execComplete n s = .next t) :
    ∃ t', execComplete n s' = .next t' ∧ SameControl t t' := by
  have hecho : s'.expectedEcho = s.expectedEcho := by rw [State.expectedEcho, hc.frameIndex, State.expectedEcho]
  obtain ⟨hf, hr⟩ | ⟨hf, hn, hr⟩ | ⟨hf, hn, hr⟩ := execComplete_cases n s
  all_goals rw [hr] at h
  · cases h
    exact ⟨_, execComplete_of_spurious n (hc.inFlight.trans hf), hc.raise _⟩
  · cases h
    exact ⟨_, execComplete_of_mismatch (hc.inFlight.trans hf) (by rwa [hecho]), hc.clearInFlight.setIdle.raise _⟩
  · obtain ⟨t', ht', hc'⟩ := sequencerStep_sameControl hc.clearInFlight (outcomeOf_next.1 h)
    exact ⟨t', by rw [execComplete_of_echo (hc.inFlight.trans hf) (hn.trans hecho.symm), ht', outcomeOf_ok], hc'⟩

theorem execStart_sameControl {L : Word32} {s s' t : State} (hc : SameControl s s')
    (hp : s'.presented.len = s.presented.len) (h : execStart L s = .next t) :
    ∃ t', execStart L s' = .next t' ∧ SameControl t t' := by
  have hlen (hL : s.presents L = true) : s'.presented.len = L.toNat := hp.trans (State.presents_iff.1 hL)
  obtain ⟨-, hr⟩ | ⟨hL, hs, hr⟩ | ⟨hL, hs, hf, hr⟩ | ⟨hL, hs, hf, hlong, hr⟩ | ⟨hL, hs, hf, hshort, hr⟩ :=
    execStart_cases L s
  all_goals rw [hr] at h
  · cases h
  case inr.inl =>
    cases h
    exact ⟨s', execStart_of_sending (hlen hL) (hc.status.trans hs), hc⟩
  case inr.inr.inl =>
    cases h
    exact ⟨s', execStart_of_inFlight (hlen hL) (hc.inFlight.trans hf), hc⟩
  case inr.inr.inr.inl =>
    cases h
    exact ⟨_, execStart_of_tooLong (hlen hL) (hc.status.trans hs) (hc.inFlight.trans hf) hlong, hc.raise _⟩
  case inr.inr.inr.inr =>
    obtain ⟨-, rfl⟩ := controlStep_ok.1 (outcomeOf_next.1 h)
    exact ⟨_, execStart_of_accepted (hc.status.trans hs) (hc.inFlight.trans hf) (hlen hL) hshort,
      (hc.openSession hp L).dispatch _ _ _⟩

/-- Settles O45: the guards of the five events read what the two states agree on, and each way writes the registers with
values that depend on these only. -/
theorem transitionsIgnoreContents : Obligations.TransitionsIgnoreContents := by
  intro i s s' t hi hstatus hflight hindex hlen hpolicy hsrc hpresented h
  have hc : SameControl s s' := ⟨hstatus, hflight, hindex, hlen, hpolicy, hsrc⟩
  suffices hsame : ∃ t', exec i s' = .next t' ∧ SameControl t t' by
    obtain ⟨t', ht', hc'⟩ := hsame
    exact ⟨t', ht', hc'.status, hc'.inFlight, hc'.frameIndex, hc'.srcLen⟩
  obtain ⟨L, rfl⟩ | rfl | ⟨n, rfl⟩ | rfl | ⟨n, rfl⟩ := hi
  · exact execStart_sameControl hc hpresented h
  · cases h
    exact ⟨_, exec_stop s', hc.setIdle⟩
  · exact execComplete_sameControl hc h
  · cases h
    exact ⟨_, exec_loadFail s', hc.raise _⟩
  · obtain ⟨t', ht', hc'⟩ := sequencerStep_sameControl hc (outcomeOf_next.1 h)
    exact ⟨t', by rw [exec_step, ht', outcomeOf_ok], hc'⟩

/-! While Idle. -/

/-- While Idle a COMPLETE with the right echo is cancelled (R116, R119). -/
theorem execComplete_of_idle_echo {n : Word32} {s : State} (hs : s.status = .idle) (hf : s.inFlight = true)
    (hn : n.toNat = s.expectedEcho) : execComplete n s = .next (clearInFlight s) := by
  rw [execComplete_of_echo hf hn, sequencerStep_of_idle (s := clearInFlight s) n hs, outcomeOf_ok]

theorem execComplete_of_idle_src (n : Word32) {s : State} (B : Memory) (hs : s.status = .idle) :
    ∃ t, execComplete n s = .next t ∧ execComplete n { s with src := B } = .next { t with src := B } := by
  obtain hf | hf := Bool.eq_false_or_eq_true s.inFlight
  · by_cases hn : n.toNat = s.expectedEcho
    · exact ⟨_, execComplete_of_idle_echo hs hf hn, execComplete_of_idle_echo (s := { s with src := B }) hs hf hn⟩
    · exact ⟨_, execComplete_of_mismatch hf hn, execComplete_of_mismatch (s := { s with src := B }) hf hn⟩
  · exact ⟨_, execComplete_of_spurious n hf, execComplete_of_spurious (s := { s with src := B }) n hf⟩

/-- Settles O46: while Idle each event writes registers only, and an accepted START puts the presented buffer in the
place of SRC. -/
theorem idleCoreNeverReadsTheSource : Obligations.IdleCoreNeverReadsTheSource := by
  refine fun s B hs => ⟨fun i hi => ?_, fun L hf hp hL => ?_⟩
  · obtain rfl | ⟨n, rfl⟩ | rfl | ⟨n, rfl⟩ := hi
    · exact ⟨_, exec_stop s, rfl⟩
    · exact execComplete_of_idle_src n B hs
    · exact ⟨_, exec_loadFail s, rfl⟩
    · refine ⟨s, ?_, ?_⟩
      · rw [exec_step, sequencerStep_of_idle n hs, outcomeOf_ok]
      · rw [exec_step, sequencerStep_of_idle (s := { s with src := B }) n hs, outcomeOf_ok]
  · exact (execStart_of_accepted (s := { s with src := B }) hs hf hp hL).trans (execStart_of_accepted hs hf hp hL).symm

end Sys2Proof.Machine
end

section
/-! What the core takes from its two channels, the core that waits, and a round with the ChannelDriver (42_sequencer.md
R105, 70_reset_and_hazards.md R148, R153). -/

namespace Sys2Proof.Machine

/-! The two channels. -/

/-- Settles O49: a word that its channel carries is run as it decodes. -/
theorem stepRunsTheDecodedInstruction : Obligations.StepRunsTheDecodedInstruction :=
  fun _ _ _ hs hf hd hc => step_eq_exec hs hf hd hc

theorem controlReady_of_closed {s : State} (h : s.control = [] ∨ ∃ c cs, s.control = c :: cs ∧ held s c = true) :
    controlReady s = false := by
  obtain hnil | ⟨c, cs, hcs, hheld⟩ := h
  · simp only [controlReady, hnil]
  · rw [controlReady_cons hcs, hheld]
    rfl

/-- With both heads enabled the chosen channel's head is taken, and the choice is used up. -/
theorem fetch_of_both_ready {s : State} {w : EventWord} {ws : List EventWord} (hport : s.port = none)
    (hr : controlReady s = true) (hw : s.completion = w :: ws) :
    (chosenChannel s = .control → fetch s = takeControl (useChoice s)) ∧
    (chosenChannel s = .completion → fetch s = takeCompletion (useChoice s)) := by
  constructor
  all_goals
    intro hchoice
    simp [fetch, hport, hr, completionReady, hw, hchoice]

/-- Settles O50: the control channel is open exactly where its head is not held, the completion channel where it has a
head. -/
theorem theCoreTakesAnEnabledHead : Obligations.TheCoreTakesAnEnabledHead := by
  intro s hport
  have hready {c : ControlItem} {cs : List ControlItem} (hcs : s.control = c :: cs) (hheld : held s c = false) :
      controlReady s = true := by rw [controlReady_cons hcs, hheld]; rfl
  refine ⟨fun c cs hcs hheld hnil => ?_, fun w ws hw hclosed => ?_, fun c cs w ws hcs hheld hw => ?_,
    fun hnil hclosed => ?_⟩
  · rw [fetch_of_controlReady hport (hready hcs hheld) hnil, takeControl_cons hcs]
  · rw [fetch_of_not_controlReady hport (controlReady_of_closed hclosed), takeCompletion_cons hw]
  · obtain ⟨hcontrol, hcompletion⟩ := fetch_of_both_ready hport (hready hcs hheld) hw
    cases hchoice : chosenChannel s with
    | control => exact (hcontrol hchoice).trans (takeControl_cons (s := useChoice s) hcs)
    | completion => exact (hcompletion hchoice).trans (takeCompletion_cons (s := useChoice s) hw)
  · rw [fetch_of_not_controlReady hport (controlReady_of_closed hclosed), takeCompletion_nil hnil]

/-! Waiting. -/

/-- With no enabled head a step answers the state itself (log 4). -/
theorem step_of_stuck {s : State} (hs : ¬(s.status = .sending ∧ s.inFlight = false)) (hstuck : Stuck s) :
    step s = .next s := by
  rw [Stuck] at hstuck
  simp only [step, if_neg hs, hstuck]

/-- A state that steps to itself is that of every run from it. -/
theorem run_of_step_self {s : State} (h : step s = .next s) (k : Nat) : core.run k s = .next s := by
  induction k with
  | zero => rfl
  | succ k ih =>
    have hcore : core.step s = .next s := h
    simp only [Host.Core.run, hcore]
    exact ih

/-- Settles O51: without a COMPLETE the completion channel has no head, and the control channel has none or a held one. -/
theorem aStalledDriverStallsTheCore : Obligations.AStalledDriverStallsTheCore := by
  intro s hf hport hnil hcontrol
  have hclosed : controlReady s = false := by
    refine controlReady_of_closed (hcontrol.imp_right ?_)
    rintro ⟨hs, c, cs, L, hcs, hd, hlen⟩
    exact ⟨c, cs, hcs, held_eq_true hs hf (ControlItem.isStart_of_decode hd hlen)⟩
  have hstuck : Stuck s := (fetch_of_not_controlReady hport hclosed).trans (takeCompletion_nil hnil)
  exact run_of_step_self (step_of_stuck (by simp [hf]) hstuck)

/-! A round with the ChannelDriver. -/

theorem driverFinish_cons {s : State} {p : Playback} {ps : List Playback} (h : s.playing = p :: ps) :
    driverFinish s = some (postCompletion (eventWord codeComplete p.next) { s with playing := ps }) := by
  simp only [driverFinish, h]

/-- With one frame playing and nothing waiting, a round runs the COMPLETE of that frame. -/
theorem driverRound_eq {s : State} {p : Playback} (hs : ¬(s.status = .sending ∧ s.inFlight = false))
    (hport : s.port = none) (hcontrol : s.control = []) (hcompletion : s.completion = []) (hp : s.playing = [p]) :
    driverRound s = execComplete p.next { s with playing := [] } := by
  have hposted : (postCompletion (eventWord codeComplete p.next) { s with playing := [] }).completion =
      [eventWord codeComplete p.next] := congrArg (· ++ _) hcompletion
  have hclosed : controlReady (postCompletion (eventWord codeComplete p.next) { s with playing := [] }) = false :=
    controlReady_of_closed (.inl hcontrol)
  rw [driverRound, driverFinish_cons hp]
  refine (step_complete_head (s := postCompletion _ { s with playing := [] }) hs hport hclosed hposted).trans (congrArg _ ?_)
  rw [← hcompletion]
  rfl

/-- With nothing playing, a round changes nothing. -/
theorem driverRound_of_silent {s : State} (hp : s.playing = []) : driverRound s = .next s := by
  simp only [driverRound, driverFinish, hp]

/-- Settles O53: reset leaves the frame with the driver and nothing in flight, so that its COMPLETE is spurious. -/
theorem resetDuringPlayback : Obligations.ResetDuringPlayback := by
  intro s p hp hcompletion hcontrol hport
  refine ⟨resetCore_playing s, resetCore_outputs s, raise .spuriousCompletion { resetCore s with playing := [] },
    ?_, rfl, rfl, rfl, rfl, rfl, rfl, rfl, rfl⟩
  have hround := driverRound_eq (s := resetCore s) (by simp) hport hcontrol hcompletion hp
  exact hround.trans (execComplete_of_spurious (s := { resetCore s with playing := [] }) p.next rfl)

end Sys2Proof.Machine
end

section
/-! Whole runs with a ChannelDriver that completes every frame: a session under STOP, a pass under LOOP, and a session that
STOP cancels (42_sequencer.md R125, R127, R128). -/

namespace Sys2Proof.Machine

/-! Rounds one after the other. -/

theorem driverRounds_succ {k : Nat} {s t : State} (h : driverRound s = .next t) :
    driverRounds (k + 1) s = driverRounds k t := by
  simp only [driverRounds, h]

theorem driverRounds_add {j k : Nat} {s t : State} (h : driverRounds j s = .next t) :
    driverRounds (j + k) s = driverRounds k t := by
  induction j generalizing s with
  | zero =>
    cases h
    rw [Nat.zero_add]
  | succ j ih =>
    cases hround : driverRound s with
    | next s' =>
      rw [driverRounds_succ hround] at h
      rw [Nat.add_right_comm, driverRounds_succ hround, ih h]
    | fault f => simp [driverRounds, hround] at h
    | refused r => simp [driverRounds, hround] at h

theorem driverRounds_of_silent {s : State} (hp : s.playing = []) (k : Nat) : driverRounds k s = .next s := by
  induction k with
  | zero => rfl
  | succ k ih => rw [driverRounds_succ (driverRound_of_silent hp), ih]

/-! A session of a buffer `B`, between two events. -/

/-- The frame of index `i` of a session of the buffer `B` plays, and nothing waits. -/
structure Walking (B : Memory) (i : Nat) (s : State) : Prop where
  status : s.status = .sending
  inFlight : s.inFlight = true
  port : s.port = none
  control : s.control = []
  completion : s.completion = []
  playing : ∃ F, s.playing = [⟨F, BitVec.ofNat 32 (i + 1)⟩]
  frameIndex : s.frameIndex = BitVec.ofNat 32 i
  src : s.src = B
  srcLen : s.srcLen.toNat = B.len
  len_le : B.len ≤ maxLen
  index_le : i ≤ 1 + blocksOf B.len

namespace Walking

variable {B : Memory} {i : Nat} {s : State}

theorem blocks (w : Walking B i s) : s.blocks = blocksOf B.len := congrArg blocksOf w.srcLen

theorem src_len (w : Walking B i s) : s.src.len = s.srcLen.toNat := by rw [w.src, w.srcLen]

theorem toNat_index {B : Memory} {j : Nat} (hlen : B.len ≤ maxLen) (hj : j ≤ 2 + blocksOf B.len) :
    (BitVec.ofNat 32 j).toNat = j :=
  toNat_ofNat_of_le hj (blocksOf_le hlen)

theorem toNat_next (w : Walking B i s) : (BitVec.ofNat 32 (i + 1)).toNat = i + 1 :=
  toNat_index w.len_le (by have := w.index_le; omega)

/-- The echo of the frame that plays is right. -/
theorem echo (w : Walking B i s) : (BitVec.ofNat 32 (i + 1)).toNat = s.expectedEcho := by
  rw [w.toNat_next, State.expectedEcho, w.frameIndex, toNat_index w.len_le (by have := w.index_le; omega)]

/-- A round runs the COMPLETE of the frame that plays. -/
theorem round (w : Walking B i s) :
    driverRound s = execComplete (BitVec.ofNat 32 (i + 1)) { s with playing := [] } := by
  obtain ⟨F, hF⟩ := w.playing
  exact driverRound_eq (by simp [w.inFlight]) w.port w.control w.completion hF

/-- A dispatch of a session leaves the session at the index dispatched. -/
theorem dispatch (w : Walking B i s) {j : Nat} (hj : j ≤ 1 + blocksOf B.len) (F : List Byte) :
    Walking B j (dispatch j F { s with playing := [] }) :=
  { w with inFlight := rfl, playing := ⟨F, rfl⟩, frameIndex := rfl, index_le := hj }

theorem round_control (w : Walking B 0 s) :
    driverRound s = .next (Machine.dispatch 1 (controlFrameOf B) { s with playing := [] }) := by
  have hrun := execComplete_control (s := { s with playing := [] }) w.status w.inFlight w.echo w.src_len (by decide)
  rw [w.round, hrun, ← w.src]
  rfl

/-- The next round sends block `i`. -/
theorem round_block (w : Walking B (i + 1) s) (hi : i < blocksOf B.len) :
    driverRound s = .next (Machine.dispatch (i + 2) (dataFrameOf B i) { s with playing := [] }) := by
  have hn : (BitVec.ofNat 32 (i + 2)).toNat = i + 2 := w.toNat_next
  have hlt : (BitVec.ofNat 32 (i + 2)).toNat < 2 + s.blocks := by rw [hn, w.blocks]; omega
  have hrun := execComplete_block (s := { s with playing := [] }) w.status w.inFlight w.echo w.src_len
    (w.srcLen.trans_le w.len_le) (by rw [hn]; omega) hlt
  rw [w.round, hrun, hn, ← w.src]
  rfl

/-- After the last block LOOP counts the pass and sends block 0. -/
theorem round_loop (w : Walking B (1 + blocksOf B.len) s) (hloop : s.endPolicy = .loop) (hblocks : 1 ≤ blocksOf B.len) :
    driverRound s = .next (Machine.dispatch 2 (dataFrameOf B 0) { Machine.countPass s with playing := [] }) := by
  have hend : (BitVec.ofNat 32 (1 + blocksOf B.len + 1)).toNat = 2 + s.blocks := by rw [w.toNat_next, w.blocks]; omega
  have hrun := execComplete_loop (s := { s with playing := [] }) w.status w.inFlight w.echo w.src_len hend hloop
    (w.blocks ▸ hblocks)
  rw [w.round, hrun, ← w.src]
  rfl

/-- After the last frame STOP ends the sequence. -/
theorem round_end (w : Walking B (1 + blocksOf B.len) s) (hstop : s.endPolicy = .stop) :
    driverRound s =
      .next (endSequence (BitVec.ofNat 32 (2 + blocksOf B.len)) (clearInFlight { s with playing := [] })) := by
  have hindex : 1 + blocksOf B.len + 1 = 2 + blocksOf B.len := by omega
  have hend : (BitVec.ofNat 32 (1 + blocksOf B.len + 1)).toNat = 2 + s.blocks := by rw [w.toNat_next, w.blocks]; omega
  have hrun := execComplete_end (s := { s with playing := [] }) w.status w.inFlight w.echo hend
    (fun h => nomatch hstop.symm.trans h.1)
  rw [w.round, hrun, hindex]

/-- As many rounds send as many blocks, from block `i` on, and write nothing else of the session but its position. -/
theorem rounds_blocks {k : Nat} (w : Walking B (i + 1) s) (hk : i + k ≤ blocksOf B.len) :
    ∃ u, driverRounds k s = .next u ∧ Walking B (i + k + 1) u ∧
      u.outputs = s.outputs ++ (List.range' i k).map (transmitBlock B) ∧ u.playCount = s.playCount ∧
      u.endPolicy = s.endPolicy ∧ u.srcLen = s.srcLen := by
  induction k generalizing i s with
  | zero => exact ⟨s, rfl, w, (List.append_nil _).symm, rfl, rfl, rfl⟩
  | succ k ih =>
    obtain ⟨u, hu, hw, hout, hpass, hpolicy, hlen⟩ :=
      ih (i := i + 1) (w.dispatch (j := i + 2) (by omega) (dataFrameOf B i)) (by omega)
    refine ⟨u, (driverRounds_succ (w.round_block (by omega))).trans hu, ?_, ?_, hpass, hpolicy, hlen⟩
    · rwa [show i + (k + 1) + 1 = i + 1 + k + 1 by omega]
    · rw [hout, dispatch_outputs, List.range'_succ, List.map_cons, List.append_assoc, List.singleton_append,
        transmitBlock]

end Walking

/-! The three laws. -/

theorem decode_eventWord_start (L : Word32) : decode (.event (eventWord codeStart L)) = .ok (.start L) :=
  decode_of_encode_event rfl

theorem decode_eventWord_stop : decode (.event (eventWord codeStop 0)) = .ok .stop :=
  decode_of_encode_event rfl

/-- A START that waits alone opens the session of its buffer (42_sequencer.md R110). -/
theorem step_start {s : State} {B : Memory} (hs : s.status = .idle) (hf : s.inFlight = false) (hport : s.port = none)
    (hplaying : s.playing = []) (hcompletion : s.completion = []) (hB : B.len ≤ maxLen)
    (hcontrol : s.control = [⟨eventWord codeStart (BitVec.ofNat 32 B.len), B⟩]) :
    ∃ t, step s = .next t ∧ Walking B 0 t ∧ t.outputs = s.outputs ++ [.transmit (controlFrameOf B) 1] ∧
      t.playCount = 0 ∧ t.endPolicy = s.endPolicy := by
  have hlen : (BitVec.ofNat 32 B.len).toNat = B.len := by
    rw [BitVec.toNat_ofNat, Nat.mod_eq_of_lt]
    unfold maxLen at hB
    omega
  have hstep := step_control_head (by simp [hs]) hport hcontrol (held_eq_false _ hf) hcompletion
    (decode_eventWord_start _) rfl
  have hrun := execStart_of_accepted (s := { s with control := [], presented := B }) hs hf hlen.symm (hlen.trans_le hB)
  refine ⟨_, hstep.trans hrun, ?_, ?_, rfl, rfl⟩
  · exact
      { status := rfl
        inFlight := rfl
        port := hport
        control := rfl
        completion := hcompletion
        playing := ⟨_, congrArg (· ++ _) hplaying⟩
        frameIndex := rfl
        src := rfl
        srcLen := hlen
        len_le := hB
        index_le := Nat.zero_le _ }
  · rw [dispatch_outputs, hlen]
    rfl

theorem sessionOutputs_length (B : Memory) : (sessionOutputs B).length = 3 + blocksOf B.len := by
  simp only [sessionOutputs, List.length_append, List.length_map, List.length_range, List.length_cons, List.length_nil]
  omega

/-- Settles O58: START sends the first control frame; the rounds after it send the second one, every block, and end the
sequence. -/
theorem sessionSendsEveryBlockInOrder : Obligations.SessionSendsEveryBlockInOrder := by
  intro s B hs hf hpolicy hport hplaying hcompletion hB hcontrol
  obtain ⟨t, ht, hw, hout, hpass, hpol⟩ := step_start hs hf hport hplaying hcompletion hB hcontrol
  have hw1 := hw.dispatch (j := 1) (by omega) (controlFrameOf B)
  obtain ⟨v, hv, hwv, houtv, hpassv, hpolv, -⟩ := hw1.rounds_blocks (i := 0) (k := blocksOf B.len) (by omega)
  rw [Nat.zero_add, Nat.add_comm] at hwv
  have hrounds : driverRounds (2 + blocksOf B.len) t =
      .next (endSequence (BitVec.ofNat 32 (2 + blocksOf B.len)) (clearInFlight { v with playing := [] })) := by
    rw [show 2 + blocksOf B.len = blocksOf B.len + 1 + 1 by omega, driverRounds_succ hw.round_control,
      driverRounds_add hv, driverRounds_succ (hwv.round_end (hpolv.trans (hpol.trans hpolicy)))]
    rw [show 2 + blocksOf B.len = blocksOf B.len + 1 + 1 by omega]
    rfl
  refine ⟨t, _, ht, hrounds, ?_, sessionOutputs_length B, ⟨rfl, rfl, hwv.control, hwv.completion⟩, rfl, ?_,
    hpassv.trans hpass, hwv.src⟩
  · rw [endSequence_outputs, clearInFlight_outputs]
    show v.outputs ++ _ = _
    rw [houtv, dispatch_outputs]
    show t.outputs ++ _ ++ _ ++ _ = _
    rw [hout, sessionOutputs, List.range_eq_range']
    simp
  · exact Walking.toNat_index hwv.len_le (le_refl _)

/-- Settles O59: the other blocks follow block 0, and then the wrap. -/
theorem loopPassReturnsToBlockZero : Obligations.LoopPassReturnsToBlockZero := by
  intro s F hs hf hpolicy hport hindex hplaying hcompletion hcontrol hlen hmax hblocks
  have hcount : s.blocks = blocksOf s.src.len := by rw [hlen]; rfl
  have hw : Walking s.src (1 + 1) s :=
    { status := hs, inFlight := hf, port := hport, control := hcontrol, completion := hcompletion
      playing := ⟨F, hplaying⟩, frameIndex := hindex, src := rfl, srcLen := hlen.symm
      len_le := hlen.trans_le hmax, index_le := by omega }
  obtain ⟨v, hv, hwv, hout, hpass, hpol, hlenv⟩ := hw.rounds_blocks (k := s.blocks - 1) (by omega)
  rw [show 1 + (s.blocks - 1) + 1 = 1 + blocksOf s.src.len by omega] at hwv
  have hrounds : driverRounds s.blocks s =
      .next (dispatch 2 (dataFrameOf s.src 0) { countPass v with playing := [] }) := by
    have hlast := driverRounds_succ (k := 0) (hwv.round_loop (hpol.trans hpolicy) (by omega))
    rw [show s.blocks = s.blocks - 1 + (0 + 1) by omega, driverRounds_add hv, hlast]
    rfl
  refine ⟨_, hrounds, ?_, ?_, rfl, hwv.status, rfl, rfl, hwv.src, hlenv⟩
  · rw [dispatch_outputs]
    show v.outputs ++ _ = _
    rw [hout, List.range'_eq_map_range, List.map_map]
    simp only [Function.comp_def, Nat.add_comm 1]
    rfl
  · show v.playCount + 1 = _
    rw [hpass]

/-- Settles O60: after STOP the session is Idle, so the one COMPLETE that is due is cancelled, and the rounds after it
find nothing playing. -/
theorem stopCancelsTheSession : Obligations.StopCancelsTheSession := by
  intro s side F m hs hf hport hcontrol hcompletion hplaying hm
  have hstep : step s = .next (setIdle { s with control := [], presented := side }) :=
    (step_control_head (by simp [hf]) hport hcontrol (by simp [held, hs]) hcompletion decode_eventWord_stop rfl).trans
      (exec_stop _)
  have hround := driverRound_eq (s := setIdle { s with control := [], presented := side }) (by simp) hport rfl
    hcompletion hplaying
  have hcancelled := execComplete_of_idle_echo (n := m)
    (s := { setIdle { s with control := [], presented := side } with playing := [] }) rfl hf hm
  refine ⟨_, hstep, rfl, fun k hk => ?_⟩
  obtain ⟨k, rfl⟩ := Nat.exists_eq_add_of_le' hk
  exact ⟨_, (driverRounds_succ (hround.trans hcancelled)).trans (driverRounds_of_silent rfl k), rfl,
    ⟨rfl, rfl, rfl, hcompletion⟩, rfl, rfl⟩

end Sys2Proof.Machine
end
